-- ==== Sys2Proof/Word.lean ====
section
/-! DEFINITION. The word types of the PM16: the byte of a frame or of the service port, the two-byte field, and the station id. -/

namespace Sys2Proof

/-- A byte of a frame or of a service-port transaction (R191, R194). -/
abbrev Byte := BitVec 8

/-- A two-byte field: a voltage in 2 mV, a signed current in 10 mA, a mask (R191, R194). -/
abbrev Half := BitVec 16

/-- A station identifier, 0 to 15 (R165). -/
abbrev StationId := BitVec 4

end Sys2Proof
end

