-- ==== Sys2Proof/Syntax.lean ====
section
/-! DEFINITION. The commands of the PM16: one constructor of `Instr` for each row of spec/opcode_table.json. The rows list no operands; the operands here are what the row's event brings from outside (the fields of a frame, the inputs of a sample, the arguments of a request). -/

namespace Sys2Proof

/-- The payload of a TRIP frame (R192). -/
structure TripPayload where
  faultCode : Byte
  scope     : Byte
  value     : Half
deriving DecidableEq, Repr

/-- The payload of a CLAIM frame (R192): the timing byte holds the claim-timeout code and the settle code. -/
structure ClaimPayload where
  voltage : Half
  number  : Byte
  timing  : Byte
deriving DecidableEq, Repr

/-- The payload of an OBJECT frame (R192). -/
structure ObjectPayload where
  target : Byte
  number : Byte
  reason : Byte
deriving DecidableEq, Repr

/-- The payload of an ASSENT frame (R192). -/
structure AssentPayload where
  target : Byte
  number : Byte
deriving DecidableEq, Repr

/-- The payload of a CLOSED frame (R192). -/
structure ClosedPayload where
  number : Byte
  vbus   : Half
deriving DecidableEq, Repr

/-- The payload of an ABANDON frame (R192). -/
structure AbandonPayload where
  number : Byte
  reason : Byte
deriving DecidableEq, Repr

/-- The payload of a STATUS frame (R192). -/
structure StatusPayload where
  voltage     : Half
  current     : Half
  level       : Byte
  temperature : Byte
  stateByte   : Byte
  flagsByte   : Byte
deriving DecidableEq, Repr

/-- The eight kinds of frame (R4, R6). -/
inductive FrameKind where
  | trip
  | claim
  | object
  | assent
  | closed
  | abandon
  | release
  | status
deriving DecidableEq, Repr

/-- A frame of known kind with its payload, its source left out: what a station hands to its bus interface (R12). -/
inductive Frame where
  | trip (p : TripPayload)
  | claim (p : ClaimPayload)
  | object (p : ObjectPayload)
  | assent (p : AssentPayload)
  | closed (p : ClosedPayload)
  | abandon (p : AbandonPayload)
  | release
  | status (p : StatusPayload)
deriving DecidableEq, Repr

/-- A frame as read from MBD, whole: rank byte, length field, payload bytes and check byte (R2). -/
structure RawFrame where
  rank    : Byte
  length  : BitVec 4
  payload : List Byte
  check   : Byte
deriving DecidableEq, Repr

/-- What the other stations do when the line has become idle (R3, R4): nobody offers; another station's start mark is
read before this one has begun its own; or others offer at the same idle, the lowest of their rank bytes given. -/
inductive IdleContest where
  | alone
  | startMarkSeen
  | offered (rank : Byte)
deriving DecidableEq, Repr

/-- The order of two reports of one event that fall together (R97, R50, R154): the report to the connection side (the
eligibility test; the emptied transmit list and the end of the claim) or the report to the Fault Unit goes first. -/
inductive Race where
  | controllerFirst
  | faultFirst
deriving DecidableEq, Repr, Inhabited

/-- The analog inputs of one conversion cycle, before clamping (R96): voltages in 2 mV, current in 10 mA positive into
the module, temperature in degrees Celsius. -/
structure SampleInputs where
  vms    : Nat
  vbs    : Nat
  isense : Int
  ts     : Int
deriving DecidableEq, Repr

/-- A set of self-check items (R162); in a result, the items that failed. -/
structure CheckItems where
  converter : Bool
  gates     : Bool
  store     : Bool
deriving DecidableEq, Repr

/-- The commands: one constructor per row of spec/opcode_table.json, in the table's order. `current` is the magnitude
of the module current, in 10 mA, that the short comparator or the wake-current detector sees. -/
inductive Instr where
  | lineIdle (contest : IdleContest)
  | collisionError
  | txSuccess
  | txAttemptFailed (race : Race)
  | frameFaulty (frame : RawFrame)
  | frameRejected (frame : RawFrame)
  | unknownKindFrame (frame : RawFrame)
  | statusReceived (src : StationId) (p : StatusPayload)
  | tripReceived (src : StationId) (p : TripPayload)
  | claimReceived (src : StationId) (p : ClaimPayload)
  | objectReceived (src : StationId) (p : ObjectPayload)
  | assentReceived (src : StationId) (p : AssentPayload)
  | closedReceived (src : StationId) (p : ClosedPayload)
  | abandonReceived (src : StationId) (p : AbandonPayload)
  | releaseReceived (src : StationId)
  | silentExitCount
  | silenceTimerExpiry
  | rosterStaleLimit (id : StationId)
  | rosterEmptyLimit (id : StationId)
  | recordExpiry
  | claimTimerExpiry
  | holdOffExpiry
  | quietPeriodExpiry
  | settleEnd
  | releaseTimerExpiry
  | statusTimerExpiry
  | sampleComplete (inputs : SampleInputs) (race : Race)
  | shortOnset (current : Nat)
  | shortClearance (current : Nat)
  | lockoutWindowExpiry
  | selfCheckEnd (failed : CheckItems)
  | sleepEntry
  | wakeLine
  | currentWake (current : Nat)
  | portWake
  | wakePulseEnd
  | mainDomainReady (current : Nat)
  | vkaLoss
  | powerOnResetEnd (straps : StationId)
  | resetnLow (width : Nat) (taken : Bool)
  | vddLow
  | pinResetEnd (straps : StationId) (current : Nat)
  | serviceResetEnd (current : Nat)
  | ssnRelease
  | ident
  | statusRead
  | sampleRead
  | rosterRead (id : Byte)
  | faultRead
  | historyRead
  | countersRead
  | closureRead
  | configWrite (field : Byte) (value : Half)
  | configCommit (current : Nat)
  | join
  | leave
  | sleep
  | ackTrip
  | setHolds (mask : Half)
  | clearFaults (mask : Half)
  | check
  | eventClear (mask : Half)
  | eventEnable (mask : Half)
  | serviceReset
  | unknownCommand (code : Byte)
  | transactionBegin
deriving DecidableEq, Repr

end Sys2Proof
end

