-- ==== Sys2Proof/Decode.lean ====
section
/-! DEFINITION. Decoding and encoding. No row of spec/opcode_table.json gives bits, so the word decoder the host asks for answers none. What the manual does lay out in bits is here: the frames of MBD (R2, R6, R191 to R193), read into the command they amount to, and the bytes of a service-port transaction (R177, R178, R194), with the encoder of each. -/

namespace Sys2Proof

/-- The command that a word spells by the bits of the opcode table: none, since no row gives bits (log entry 32). -/
def decodeTableWord (_nbits _w : Nat) : Option Instr := none

/-! ## Bytes and two-byte fields -/

/-- The most significant byte of a two-byte field, which goes first (R191, R194). -/
def hiByte (h : Half) : Byte := h.extractLsb' 8 8

/-- The least significant byte of a two-byte field. -/
def loByte (h : Half) : Byte := h.extractLsb' 0 8

/-- A two-byte field from its bytes, most significant first (R191, R194). -/
def halfOf (hi lo : Byte) : Half := hi ++ lo

/-! ## Frames on MBD -/

/-- The kind code of each kind (R4). -/
def FrameKind.code : FrameKind → BitVec 4
  | .trip => 1
  | .claim => 3
  | .object => 4
  | .assent => 5
  | .closed => 6
  | .abandon => 7
  | .release => 8
  | .status => 10

/-- The kind that a kind code names; none for the unknown codes 0, 2, 9 and 11 to 15 (R6, R8). -/
def FrameKind.ofCode (c : BitVec 4) : Option FrameKind :=
  if c = 1 then some .trip
  else if c = 3 then some .claim
  else if c = 4 then some .object
  else if c = 5 then some .assent
  else if c = 6 then some .closed
  else if c = 7 then some .abandon
  else if c = 8 then some .release
  else if c = 10 then some .status
  else none

/-- The payload bytes of each kind (R6). -/
def FrameKind.payloadBytes : FrameKind → BitVec 4
  | .trip => 4
  | .claim => 4
  | .object => 3
  | .assent => 2
  | .closed => 3
  | .abandon => 2
  | .release => 0
  | .status => 8

/-- The rank byte: kind code in bits 7 to 4, source id in bits 3 to 0 (R2, R191). -/
def rankByte (kind src : BitVec 4) : Byte := kind ++ src

/-- One of the eight steps of the check register (R193). -/
def checkStep (r : Byte) : Byte :=
  if r.getLsbD 7 then (r <<< 1) ^^^ 0x07 else r <<< 1

/-- The check register after one byte of the sequence (R193). -/
def checkTake (r b : Byte) : Byte :=
  checkStep (checkStep (checkStep (checkStep (checkStep (checkStep (checkStep (checkStep (r ^^^ b))))))))

/-- The check byte of a sequence of bytes (R193). -/
def checkByte (bytes : List Byte) : Byte := bytes.foldl checkTake 0xFF

/-- The bytes over which a frame's check byte is computed: rank byte, length written as a byte, payload (R193). -/
def RawFrame.checked (f : RawFrame) : List Byte :=
  f.rank :: f.length.setWidth 8 :: f.payload

/-- The kind code of a frame read (R191). -/
def RawFrame.kindCode (f : RawFrame) : BitVec 4 := f.rank.extractLsb' 4 4

/-- The source id of a frame read (R191). -/
def RawFrame.source (f : RawFrame) : StationId := f.rank.extractLsb' 0 4

/-- The judgement of a receiver at the check byte (R6): length 9 or more, a known kind with another kind's length, or a
check byte that does not match. -/
def RawFrame.faulty (f : RawFrame) : Bool :=
  decide (9 ≤ f.length.toNat)
    || (match FrameKind.ofCode f.kindCode with
        | some k => decide (f.length ≠ k.payloadBytes)
        | none => false)
    || decide (f.check ≠ checkByte f.checked)

/-- The fields of a known kind from its payload bytes (R192), as the command that an accepted frame of that kind is. -/
def knownFrameCommand (src : StationId) : FrameKind → List Byte → Option Instr
  | .trip, [code, scope, vh, vl] => some (.tripReceived src ⟨code, scope, halfOf vh vl⟩)
  | .claim, [vh, vl, number, timing] => some (.claimReceived src ⟨halfOf vh vl, number, timing⟩)
  | .object, [target, number, reason] => some (.objectReceived src ⟨target, number, reason⟩)
  | .assent, [target, number] => some (.assentReceived src ⟨target, number⟩)
  | .closed, [number, vh, vl] => some (.closedReceived src ⟨number, halfOf vh vl⟩)
  | .abandon, [number, reason] => some (.abandonReceived src ⟨number, reason⟩)
  | .release, [] => some (.releaseReceived src)
  | .status, [vh, vl, ih, il, level, temp, st, fl] =>
      some (.statusReceived src ⟨halfOf vh vl, halfOf ih il, level, temp, st, fl⟩)
  | _, _ => none

/-- The command that a frame read whole amounts to, by the receiver's judgement and the level of the reject slot
(R6, R7, R8). -/
def RawFrame.toCommand (f : RawFrame) (slotDominant : Bool) : Instr :=
  if f.faulty then .frameFaulty f
  else if slotDominant then .frameRejected f
  else match FrameKind.ofCode f.kindCode with
    | none => .unknownKindFrame f
    | some k => (knownFrameCommand f.source k f.payload).getD (.frameFaulty f)

/-- The kind of a frame. -/
def Frame.kind : Frame → FrameKind
  | .trip _ => .trip
  | .claim _ => .claim
  | .object _ => .object
  | .assent _ => .assent
  | .closed _ => .closed
  | .abandon _ => .abandon
  | .release => .release
  | .status _ => .status

/-- The payload bytes of a frame, in the order of their byte numbers (R192). -/
def Frame.payload : Frame → List Byte
  | .trip p => [p.faultCode, p.scope, hiByte p.value, loByte p.value]
  | .claim p => [hiByte p.voltage, loByte p.voltage, p.number, p.timing]
  | .object p => [p.target, p.number, p.reason]
  | .assent p => [p.target, p.number]
  | .closed p => [p.number, hiByte p.vbus, loByte p.vbus]
  | .abandon p => [p.number, p.reason]
  | .release => []
  | .status p =>
      [hiByte p.voltage, loByte p.voltage, hiByte p.current, loByte p.current, p.level, p.temperature,
        p.stateByte, p.flagsByte]

/-- The frame as its transmitter sends it (R191 to R193). -/
def Frame.encode (src : StationId) (f : Frame) : RawFrame :=
  let bare : RawFrame := ⟨rankByte f.kind.code src, f.kind.payloadBytes, f.payload, 0⟩
  { bare with check := checkByte bare.checked }

/-- The command that an accepted frame from `src` is. -/
def Frame.received (src : StationId) : Frame → Instr
  | .trip p => .tripReceived src p
  | .claim p => .claimReceived src p
  | .object p => .objectReceived src p
  | .assent p => .assentReceived src p
  | .closed p => .closedReceived src p
  | .abandon p => .abandonReceived src p
  | .release => .releaseReceived src
  | .status p => .statusReceived src p

/-- The bit times of a frame of `n` payload bytes from its start mark to its reject slot (R2). -/
def frameBitTimes (n : Nat) : Nat := 1 + 8 + 4 + 8 * n + 8 + 1

/-- The outcome of arbitration at a station that sends the bits of `own` while others send those of `other`, most
significant bit first, with dominant 0 (R4): the station loses at the first bit in which it sends recessive and reads
dominant. -/
def arbitrationLostFrom (own other : Byte) : Nat → Bool
  | 0 => false
  | n + 1 =>
    match own.getLsbD n, other.getLsbD n with
    | true, false => true
    | false, true => false
    | _, _ => arbitrationLostFrom own other n

/-- Arbitration over the eight bits of the rank byte (R4). -/
def arbitrationLost (own other : Byte) : Bool := arbitrationLostFrom own other 8

/-! ## Bytes of a service-port transaction -/

/-- The argument bytes of the command that a command code selects; 0 for an unknown code (R177, R178, R194). -/
def portArgumentCount (code : Byte) : Nat :=
  if code = 0x13 then 1
  else if code = 0x20 then 3
  else if code = 0x26 ∨ code = 0x27 ∨ code = 0x29 ∨ code = 0x2A then 2
  else 0

/-- Whether a command code is assigned to a command (R194). -/
def portCodeAssigned (code : Byte) : Bool :=
  (decide (0x10 ≤ code.toNat) && decide (code.toNat ≤ 0x17)) || (decide (0x20 ≤ code.toNat) && decide (code.toNat ≤ 0x2B))

/-- The command of a code without arguments (R194); `current` is what the short comparator sees if the command arms
it. A code not assigned is the unknown command (R178). -/
def portPlainCommand (current : Nat) (code : Byte) : Instr :=
  if code = 0x10 then .ident
  else if code = 0x11 then .statusRead
  else if code = 0x12 then .sampleRead
  else if code = 0x14 then .faultRead
  else if code = 0x15 then .historyRead
  else if code = 0x16 then .countersRead
  else if code = 0x17 then .closureRead
  else if code = 0x21 then .configCommit current
  else if code = 0x22 then .join
  else if code = 0x23 then .leave
  else if code = 0x24 then .sleep
  else if code = 0x25 then .ackTrip
  else if code = 0x28 then .check
  else if code = 0x2B then .serviceReset
  else .unknownCommand code

/-- The command that the bytes on SDI spell (R177, R194): none while the last argument byte has not come, when nothing
is taken (R178); bytes beyond the arguments are ignored (R177, R178). -/
def decodePort (current : Nat) : List Byte → Option Instr
  | [] => none
  | code :: args =>
    if code = 0x13 then
      match args with
      | a :: _ => some (.rosterRead a)
      | _ => none
    else if code = 0x20 then
      match args with
      | f :: h :: l :: _ => some (.configWrite f (halfOf h l))
      | _ => none
    else if code = 0x26 then
      match args with
      | h :: l :: _ => some (.setHolds (halfOf h l))
      | _ => none
    else if code = 0x27 then
      match args with
      | h :: l :: _ => some (.clearFaults (halfOf h l))
      | _ => none
    else if code = 0x29 then
      match args with
      | h :: l :: _ => some (.eventClear (halfOf h l))
      | _ => none
    else if code = 0x2A then
      match args with
      | h :: l :: _ => some (.eventEnable (halfOf h l))
      | _ => none
    else some (portPlainCommand current code)

/-- The bytes that the module controller clocks in for a command of the port: its code and its arguments (R194); none
for an event that is no service-port command. -/
def encodePort : Instr → Option (List Byte)
  | .ident => some [0x10]
  | .statusRead => some [0x11]
  | .sampleRead => some [0x12]
  | .rosterRead a => some [0x13, a]
  | .faultRead => some [0x14]
  | .historyRead => some [0x15]
  | .countersRead => some [0x16]
  | .closureRead => some [0x17]
  | .configWrite f v => some [0x20, f, hiByte v, loByte v]
  | .configCommit _ => some [0x21]
  | .join => some [0x22]
  | .leave => some [0x23]
  | .sleep => some [0x24]
  | .ackTrip => some [0x25]
  | .setHolds m => some [0x26, hiByte m, loByte m]
  | .clearFaults m => some [0x27, hiByte m, loByte m]
  | .check => some [0x28]
  | .eventClear m => some [0x29, hiByte m, loByte m]
  | .eventEnable m => some [0x2A, hiByte m, loByte m]
  | .serviceReset => some [0x2B]
  | .unknownCommand c => some [c]
  | _ => none

end Sys2Proof
end

