-- ==== Sys2Proof/Machine/State.lean ====
section
/-! DEFINITION. The state of one PM16 station as plain data, block by block as 00_scope.md's block overview divides it, the two reasons a step could stop, and the state after a power-on reset. -/

namespace Sys2Proof.Machine

/-! ## Names -/

/-- Where the part stands between its supplies, its resets and its two power states (R151, R158, R159, R171 to R175,
R190). The power state of the manual is SLEEP in `sleep`, `wakePulse` and `powerUp`, and RUN in `run`. -/
inductive Phase where
  /-- VKA is absent (R190). -/
  | unpowered
  /-- VKA has returned and the power-on reset lasts (R172, R190). -/
  | powerOnReset
  /-- A pin reset lasts, through RESETN or a fall of VDD (R173, R190). -/
  | pinReset
  /-- A service reset lasts (R175). -/
  | serviceReset
  /-- RUN (R151). -/
  | run
  /-- SLEEP, no wake source latched yet (R155). -/
  | sleep
  /-- Step 1 of the wake sequence: MWK is driven low (R158). -/
  | wakePulse
  /-- Step 2 of the wake sequence: the main domain powers up (R159). -/
  | powerUp
deriving DecidableEq, Repr

/-- The bus-interface states (R19). -/
inductive BusState where
  | off
  | listen
  | active
  | silent
deriving DecidableEq, Repr

/-- The line MBD as this station has read it (R2): no idle read since OFF was left, within a frame or after one, idle. -/
inductive LineState where
  | unsynced
  | busy
  | idle
deriving DecidableEq, Repr

/-- The own attempt on the line (R3, R5): none, a frame of the given kind being sent, or one that met a collision and
whose failure (R11) is still to be taken. The frame is the first of its kind in the transmit list. -/
inductive TxPhase where
  | none
  | sending (k : FrameKind)
  | collided (k : FrameKind)
deriving DecidableEq, Repr

/-- Why a CLAIM on the line is to be withdrawn at the end of its attempt (R14): by LEAVE (R58), or by a trip, a lockout
or a followed bus-wide trip (R59). -/
inductive Withdrawal where
  | leave
  | trip
deriving DecidableEq, Repr

/-- The connection states (R70). -/
inductive ConnState where
  | detached
  | isolated
  | claiming
  | closing
  | connected
  | releasing
  | tripped
  | lockout
deriving DecidableEq, Repr

/-- The paths (R81). -/
inductive Path where
  | none
  | both
  | dischargeOnly
  | chargeOnly
deriving DecidableEq, Repr

/-- The states of a roster entry that is not EMPTY (R23); an EMPTY slot is absent from the table. -/
inductive PeerState where
  | present
  | stale
  | asleep
deriving DecidableEq, Repr

/-- The reasons of an OBJECT (R65, R192). -/
inductive ObjectReason where
  | busy
  | quiet
  | window
deriving DecidableEq, Repr

/-- The reasons of an ABANDON (R57, R192). -/
inductive AbandonReason where
  | objected
  | noAnswer
  | window
  | leave
deriving DecidableEq, Repr

/-- The scopes of a trip (R138, R192). -/
inductive Scope where
  | localOnly
  | bus
deriving DecidableEq, Repr

/-- The ten fault sources (R127). -/
inductive Source where
  | short
  | tempTrip
  | busOv
  | dupId
  | ocDsg
  | ocChg
  | modOv
  | modUv
  | busSilent
  | rxDegraded
deriving DecidableEq, Repr

/-- The fault codes: the ten source names and PATH_CONFLICT (R127, R192). -/
inductive FaultCode where
  | of (src : Source)
  | pathConflict
deriving DecidableEq, Repr

/-- The states of a fault source (R127). -/
inductive SourceState where
  | clear
  | active
  | held
  | lapsed
deriving DecidableEq, Repr

/-- The outcomes of a claim (R47). -/
inductive ClaimOutcome where
  | none
  | succeeded
  | objected (peer : StationId) (reason : ObjectReason)
  | noAnswer
  | window
  | yielded
  | dropped
  | silent
  | leave
  | tripped
  | busTrip
deriving DecidableEq, Repr

/-- The wake-source latch (R157). -/
inductive WakeSource where
  | none
  | line
  | current
  | port
deriving DecidableEq, Repr

/-- The self-check states (R161, R163). -/
inductive CheckState where
  | notRun
  | running
  | passed
  | failed
deriving DecidableEq, Repr

/-- The service-port result codes (R179). -/
inductive Result where
  | done
  | refusedState
  | refusedValue
  | refusedCondition
  | waking
deriving DecidableEq, Repr

/-- The service port's select line and what the transaction under way meets (R177, R180): SSN high; a transaction begun
in RUN; one begun in SLEEP or in the wake sequence before the main domain was up; one that a reset has ended or that
was begun in a reset. -/
inductive PortLine where
  | released
  | openRun
  | openWaking
  | openReset
deriving DecidableEq, Repr

/-- The events of the event status (R185). -/
inductive Event where
  | stateChange
  | busSenseConflict
  | tripTaken
  | busTripFollowed
  | claimAbandoned
  | peerArrived
  | peerStale
  | peerLost
  | heldFault
  | txDropped
  | answerDropped
  | checkDone
  | sleepCancelled
  | levelRecal
deriving DecidableEq, Repr

/-! ## The blocks -/

/-- A frame of the transmit list (R12). Its arrival position among frames of its rank is its place in the list. -/
structure TxFrame where
  frame  : Frame
  failed : Nat
deriving DecidableEq, Repr

/-- The Module Bus Interface (R12 to R20). -/
@[ext] structure Mbi where
  bus              : BusState
  line             : LineState
  tx               : TxPhase
  list             : List TxFrame
  heldStatus       : Option StatusPayload
  heldTrip         : Option TripPayload
  withdrawal       : Option Withdrawal
  tec              : Nat
  recCount          : Nat
  rejectMuted      : Bool
  permanentSilence : Bool
  goodCount        : Nat
  silenceTimer     : Option Nat
  slotDriven       : Bool
deriving DecidableEq, Repr

/-- The status part of a roster entry (R24). `flags` is the STATUS flags byte with its unused bits at 0. -/
structure StatusPart where
  path        : Path
  voltage     : Half
  current     : Half
  level       : Option Byte
  temperature : Byte
  flags       : Byte
  period      : BitVec 2
deriving DecidableEq, Repr

/-- A roster entry that is not EMPTY (R24). -/
structure RosterEntry where
  state        : PeerState
  age          : Nat
  announced    : Option ConnState
  trippedLocal : Bool
  lastClaim    : Option Byte
  status       : Option StatusPart
deriving DecidableEq, Repr

/-- A slot of the Roster that holds an entry (R22). -/
structure RosterSlot where
  id    : StationId
  entry : RosterEntry
deriving DecidableEq, Repr

/-- The closure record (R38). `expiry` is absent when the holder is the station itself. -/
structure ClosureRecord where
  holder : StationId
  number : Byte
  expiry : Option Nat
deriving DecidableEq, Repr

/-- The phase of a claim in progress, with the fields present in AWAITING only (R47). The awaited ids are listed in
ascending order without repeats. -/
inductive ClaimPhase where
  | queued
  | awaiting (awaited : List StationId) (timer : Nat)
deriving DecidableEq, Repr

/-- A claim in progress (R47). -/
structure Claim where
  voltage : Half
  phase   : ClaimPhase
deriving DecidableEq, Repr

/-- The Closure Engine (R38, R47, R62, R63). -/
@[ext] structure Closure where
  record      : Option ClosureRecord
  claimNumber : Byte
  claim       : Option Claim
  lastOutcome : ClaimOutcome
  holdOff     : Option Nat
  quiet       : Option Nat
deriving DecidableEq, Repr

/-- The Connection Controller (R70, R71, R78, R86, R92, R93). -/
@[ext] structure Conn where
  state        : ConnState
  path         : Path
  joined       : Bool
  sleepPending : Bool
  settle       : Option Nat
  release      : Option Nat
  statusTimer  : Option Nat
  restarted    : Bool
deriving DecidableEq, Repr

/-- The Switch Driver: the commanded state of each gate output, true for CLOSED (R90). -/
structure Switches where
  chg : Bool
  dsg : Bool
deriving DecidableEq, Repr

/-- A sample record (R96): voltages in 2 mV, current in 10 mA signed, temperature in degrees Celsius signed. -/
structure Sample where
  vmod    : Half
  vbus    : Half
  current : Half
  temp    : Byte
  cycle   : BitVec 32
deriving DecidableEq, Repr

/-- The Measurement Unit (R95, R96). `cycleTimer` counts the milliseconds of the cycle; absent while stopped. -/
@[ext] structure Meas where
  sample     : Option Sample
  cycleTimer : Option Nat
deriving DecidableEq, Repr

/-- The Charge Integrator (R100). Remainders are in steps of 40 µAs. -/
@[ext] structure Charge where
  inAs       : Nat
  inRem      : Nat
  outAs      : Nat
  outRem     : Nat
  accAs      : Nat
  accRem     : Nat
  levelValid : Bool
  rest       : Nat
deriving DecidableEq, Repr

/-- The Protection Detectors (R112, R115, R117, R119, R125): run counters, conditions, the comparator's arming and the
wake-current detector. -/
@[ext] structure Detectors where
  runDsg           : Nat
  runChg           : Nat
  tempTrip         : Bool
  busOv            : Bool
  ocDsg            : Bool
  ocChg            : Bool
  modOv            : Bool
  modUv            : Bool
  short            : Bool
  shortArmed       : Bool
  wakeCurrentArmed : Bool
  wakeCurrentRun   : Nat
deriving DecidableEq, Repr

/-- A record of the fault register (R127). The class is fixed per source and not stored. -/
structure SourceRecord where
  state   : SourceState
  present : Bool
  value   : Option Half
deriving DecidableEq, Repr

/-- The fault register (R127): one record for each source. -/
structure FaultRegister where
  short      : SourceRecord
  tempTrip   : SourceRecord
  busOv      : SourceRecord
  dupId      : SourceRecord
  ocDsg      : SourceRecord
  ocChg      : SourceRecord
  modOv      : SourceRecord
  modUv      : SourceRecord
  busSilent  : SourceRecord
  rxDegraded : SourceRecord
deriving DecidableEq, Repr

/-- A record of the trip history (R144). -/
structure TripRecord where
  number      : Half
  code        : FaultCode
  source      : Source
  scope       : Scope
  connState   : ConnState
  value       : Half
  accumulator : Nat
deriving DecidableEq, Repr

/-- The Fault Unit (R127, R128, R140, R143, R144). Bit n − 1 of the port hold mask is the source of fault code n. -/
@[ext] structure FaultUnit where
  register    : FaultRegister
  portHolds   : BitVec 10
  closingHold : Bool
  lockout     : Option Nat
  tripCounter : Nat
  history     : List TripRecord
deriving DecidableEq, Repr

/-- The Power Controller (R151, R157, R158, R162, R163). `wakeCheck` is set while the self-check is step 4 of the wake
sequence (R159), `commitCheck` where the latest self-check is the one that the commit has started (R164, R170). -/
@[ext] structure Power where
  phase         : Phase
  latch         : WakeSource
  wakeLineArmed : Bool
  wakeLineRun   : Nat
  pulseTimer    : Option Nat
  check         : CheckState
  checkTimer    : Option Nat
  checkResult   : CheckItems
  checkFailed   : Bool
  checkFlag     : Bool
  wakeCheck     : Bool
  commitCheck   : Bool
deriving DecidableEq, Repr

/-- The configuration record (R166): each field as the 16-bit count of R194, absent while unset. -/
structure ConfigRecord where
  capacity      : Option Half
  window        : Option Half
  deadBus       : Option Half
  busOvLimit    : Option Half
  ovTrip        : Option Half
  ovRelease     : Option Half
  uvTrip        : Option Half
  uvRelease     : Option Half
  ocDsgLimit    : Option Half
  ocChgLimit    : Option Half
  ocDetect      : Option Half
  shortCode     : Option Half
  tempTrip      : Option Half
  tempRelease   : Option Half
  claimTimeout  : Option Half
  settleCode    : Option Half
  statusPeriod  : Option Half
  emptyVoltage  : Option Half
  fullVoltage   : Option Half
  restCurrent   : Option Half
  wakeCurrent   : Option Half
  initialLevel  : Option Half
deriving DecidableEq, Repr

/-- What the port returns for a taken transaction: result byte and data (R177, R179). -/
structure Response where
  result : Result
  data   : List Byte
deriving DecidableEq, Repr

/-- The Service Port (R177, R175, R185): select line, response of the transaction taken last, service reset waiting for
the release of SSN, event status and event enables (event number n in bit n). -/
@[ext] structure Port where
  line         : PortLine
  response     : Option Response
  resetPending : Bool
  events       : BitVec 14
  enables      : BitVec 14
deriving DecidableEq, Repr

/-- What the wake detectors read in the millisecond of SLEEP that has passed last: whether MWK was low, and the magnitude
of the current through the sense resistor in 10 mA (R125, R157). Both are free at every millisecond (log entry 39). -/
structure Pins where
  mwkLow  : Bool
  current : Nat
deriving DecidableEq, Repr

/-- The state of one station. `pending` is the queue of commands that wait and `choices` the plain counter to which the
free orders of Config are applied: both are the model's own. -/
@[ext]
structure State where
  pending   : List Instr
  choices   : Nat
  ownId     : StationId
  config    : ConfigRecord
  committed : Bool
  mbi       : Mbi
  roster    : List RosterSlot
  closure   : Closure
  conn      : Conn
  switches  : Switches
  meas      : Meas
  charge    : Charge
  det       : Detectors
  fault     : FaultUnit
  power     : Power
  port      : Port
  pins      : Pins
deriving DecidableEq, Repr

/-- The reasons a step could stop with a fault. There are none: the manual names no event that stops the part for good
(the loss of VKA is a phase, ended by POWER_ON_RESET_END, R190), so no meaning raises a fault. Log entry 34. -/
inductive Fault
deriving DecidableEq, Repr

/-- The reasons a step could refuse a command. -/
inductive Refusal where
  /-- Raised by an arm of `exec` for a command that has no meaning yet, under its mnemonic; safe. No arm does. -/
  | notModelled (mnemonic : String)
deriving DecidableEq, Repr

/-! ## Reset -/

/-- A source record as every reset leaves it (R150). -/
def SourceRecord.quiet : SourceRecord := ⟨.clear, false, none⟩

/-- The fault register as every reset leaves it (R150). -/
def FaultRegister.quiet : FaultRegister :=
  ⟨.quiet, .quiet, .quiet, .quiet, .quiet, .quiet, .quiet, .quiet, .quiet, .quiet⟩

/-- The configuration record as power-on leaves it: every field unset (R166). -/
def ConfigRecord.unset : ConfigRecord :=
  ⟨none, none, none, none, none, none, none, none, none, none, none, none, none, none, none, none, none, none, none,
    none, none, none⟩

/-- The station at the end of a power-on reset (R172), with own id 0 (straps open, R165; log entry 11): LISTEN, waiting
for idle, DETACHED, hold-off running at its length of 100 ms (R62), the conversion cycle started (R95), the restarted
flag set (R94), everything else clear, empty, absent or at 0. -/
def State.reset : State where
  pending := []
  choices := 0
  ownId := 0
  config := .unset
  committed := false
  mbi :=
    { bus := .listen, line := .unsynced, tx := .none, list := [], heldStatus := none, heldTrip := none,
      withdrawal := none, tec := 0, recCount := 0, rejectMuted := false, permanentSilence := false, goodCount := 0,
      silenceTimer := none, slotDriven := false }
  roster := []
  closure :=
    { record := none, claimNumber := 0, claim := none, lastOutcome := .none, holdOff := some 100, quiet := none }
  conn :=
    { state := .detached, path := .none, joined := false, sleepPending := false, settle := none, release := none,
      statusTimer := none, restarted := true }
  switches := { chg := false, dsg := false }
  meas := { sample := none, cycleTimer := some 0 }
  charge :=
    { inAs := 0, inRem := 0, outAs := 0, outRem := 0, accAs := 0, accRem := 0, levelValid := false, rest := 0 }
  det :=
    { runDsg := 0, runChg := 0, tempTrip := false, busOv := false, ocDsg := false, ocChg := false, modOv := false,
      modUv := false, short := false, shortArmed := false, wakeCurrentArmed := false, wakeCurrentRun := 0 }
  fault :=
    { register := .quiet, portHolds := 0, closingHold := false, lockout := none, tripCounter := 0, history := [] }
  power :=
    { phase := .run, latch := .none, wakeLineArmed := false, wakeLineRun := 0, pulseTimer := none, check := .notRun,
      checkTimer := none, checkResult := ⟨false, false, false⟩, checkFailed := false, checkFlag := false,
      wakeCheck := false, commitCheck := false }
  port := { line := .released, response := none, resetPending := false, events := 0, enables := 0 }
  pins := { mwkLow := false, current := 0 }

end Sys2Proof.Machine
end

