-- ==== Sys2Proof/Machine/Operands.lean ====
section
/-! DEFINITION. The coded fields of frames, requests and the configuration: the codes of R192, the defined values of R9, the units of R194 and the lengths that a code stands for. -/

namespace Sys2Proof.Machine

/-! ## Codes (R192) -/

/-- The code of a connection state (R70). -/
def ConnState.code : ConnState → BitVec 3
  | .detached => 0
  | .isolated => 1
  | .claiming => 2
  | .closing => 3
  | .connected => 4
  | .releasing => 5
  | .tripped => 6
  | .lockout => 7

/-- The connection state of a code; every 3-bit value is one (R192). -/
def ConnState.ofCode (c : BitVec 3) : ConnState :=
  if c = 0 then .detached
  else if c = 1 then .isolated
  else if c = 2 then .claiming
  else if c = 3 then .closing
  else if c = 4 then .connected
  else if c = 5 then .releasing
  else if c = 6 then .tripped
  else .lockout

/-- The code of a path (R192). -/
def Path.code : Path → BitVec 2
  | .none => 0
  | .both => 1
  | .dischargeOnly => 2
  | .chargeOnly => 3

/-- The path of a code; every 2-bit value is one (R192). -/
def Path.ofCode (c : BitVec 2) : Path :=
  if c = 0 then .none
  else if c = 1 then .both
  else if c = 2 then .dischargeOnly
  else .chargeOnly

/-- The code of an OBJECT reason (R192). -/
def ObjectReason.code : ObjectReason → Byte
  | .busy => 1
  | .quiet => 2
  | .window => 3

/-- The OBJECT reason of a code, if it is a defined one (R9). -/
def ObjectReason.ofCode (c : Byte) : Option ObjectReason :=
  if c = 1 then some .busy
  else if c = 2 then some .quiet
  else if c = 3 then some .window
  else none

/-- The code of an ABANDON reason (R192). -/
def AbandonReason.code : AbandonReason → Byte
  | .objected => 1
  | .noAnswer => 2
  | .window => 3
  | .leave => 4

/-- The code of a scope (R192). -/
def Scope.code : Scope → Byte
  | .localOnly => 0
  | .bus => 1

/-- The fault code of a source, 1 to 10 (R192). -/
def Source.code : Source → Nat
  | .short => 1
  | .tempTrip => 2
  | .busOv => 3
  | .dupId => 4
  | .ocDsg => 5
  | .ocChg => 6
  | .modOv => 7
  | .modUv => 8
  | .busSilent => 9
  | .rxDegraded => 10

/-- The ten sources in the order of their fault codes. -/
def Source.all : List Source :=
  [.short, .tempTrip, .busOv, .dupId, .ocDsg, .ocChg, .modOv, .modUv, .busSilent, .rxDegraded]

/-- The numeric fault code (R192). -/
def FaultCode.code : FaultCode → Nat
  | .of src => src.code
  | .pathConflict => 11

/-- The class B sources, which holds can cover (R127, R128). -/
def Source.classB : Source → Bool
  | .short | .tempTrip | .busOv | .dupId => false
  | .ocDsg | .ocChg | .modOv | .modUv | .busSilent | .rxDegraded => true

/-- The trip sources: those whose action is a plain trip (R127). -/
def Source.isTrip : Source → Bool
  | .short | .tempTrip | .busOv | .ocDsg | .ocChg | .busSilent | .rxDegraded => true
  | .dupId | .modOv | .modUv => false

/-- The path sources (R127). -/
def Source.isPath : Source → Bool
  | .modOv | .modUv => true
  | .short | .tempTrip | .busOv | .dupId | .ocDsg | .ocChg | .busSilent | .rxDegraded => false

/-- The sources that the closing hold covers (R128). -/
def Source.isOverCurrent : Source → Bool
  | .ocDsg | .ocChg => true
  | .short | .tempTrip | .busOv | .dupId | .modOv | .modUv | .busSilent | .rxDegraded => false

/-- The code of a source state (R195). -/
def SourceState.code : SourceState → BitVec 2
  | .clear => 0
  | .active => 1
  | .held => 2
  | .lapsed => 3

/-- The code of a claim outcome (R195). -/
def ClaimOutcome.code : ClaimOutcome → Byte
  | .none => 0
  | .succeeded => 1
  | .objected _ _ => 2
  | .noAnswer => 3
  | .window => 4
  | .yielded => 5
  | .dropped => 6
  | .silent => 7
  | .leave => 8
  | .tripped => 9
  | .busTrip => 10

/-- The code of a wake source (R195). -/
def WakeSource.code : WakeSource → BitVec 2
  | .none => 0
  | .line => 1
  | .current => 2
  | .port => 3

/-- The code of a self-check state (R195). -/
def CheckState.code : CheckState → BitVec 2
  | .notRun => 0
  | .running => 1
  | .passed => 2
  | .failed => 3

/-- The code of a bus-interface state in STATUS_READ (R195), which is never OFF when answered (R182). -/
def BusState.code : BusState → BitVec 2
  | .off => 0
  | .listen => 1
  | .active => 2
  | .silent => 3

/-- The code of a roster entry's state (R195); EMPTY is 0. -/
def PeerState.code : PeerState → Byte
  | .present => 1
  | .stale => 2
  | .asleep => 3

/-- The result code (R194). -/
def Result.code : Result → Byte
  | .done => 0
  | .refusedState => 1
  | .refusedValue => 2
  | .refusedCondition => 3
  | .waking => 4

/-- The number of an event (R185). -/
def Event.number : Event → Nat
  | .stateChange => 0
  | .busSenseConflict => 1
  | .tripTaken => 2
  | .busTripFollowed => 3
  | .claimAbandoned => 4
  | .peerArrived => 5
  | .peerStale => 6
  | .peerLost => 7
  | .heldFault => 8
  | .txDropped => 9
  | .answerDropped => 10
  | .checkDone => 11
  | .sleepCancelled => 12
  | .levelRecal => 13

/-! ## Lengths that codes stand for -/

/-- The claim timeout of a claim-timeout code, in ms (R39, R192). -/
def claimTimeoutMs (c : Nat) : Nat :=
  if c = 0 then 20 else if c = 1 then 50 else if c = 2 then 100 else 200

/-- The settle time of a settle code, in ms (R39, R77, R192). -/
def settleMs (c : Nat) : Nat :=
  if c = 0 then 10 else if c = 1 then 20 else if c = 2 then 50 else if c = 3 then 100 else if c = 4 then 150 else 250

/-- The STATUS period of a status-period code, in ms (R31, R92, R192). -/
def statusPeriodMs (c : Nat) : Nat :=
  if c = 0 then 100 else if c = 1 then 250 else if c = 2 then 500 else 1000

/-- The age past which a PRESENT entry becomes STALE: three periods and 50 ms (R31). -/
def staleLimitMs (period : Nat) : Nat := 3 * period + 50

/-- The age past which a STALE entry becomes EMPTY: ten periods (R31). -/
def emptyLimitMs (period : Nat) : Nat := 10 * period

/-- The hold-off length of a station id, in ms (R62). -/
def holdOffMs (id : StationId) : Nat := 100 + 20 * id.toNat

/-- The quiet period, in ms (R63). -/
def quietMs : Nat := 1000

/-- The lockout window, in ms (R140). -/
def lockoutMs : Nat := 10000

/-- The silence timer of SILENT, in ms (R16). -/
def silenceMs : Nat := 2000

/-- The release interval, in ms (R86). -/
def releaseMs : Nat := 2

/-- The wake pulse, in ms (R158). -/
def wakePulseMs : Nat := 2

/-- The run length of the wake-line detector, in ms (R157). -/
def wakeLineMs : Nat := 1

/-- The run length of the wake-current detector, in ms (R125). -/
def wakeCurrentMs : Nat := 8

/-- The self-check, in ms (R162). -/
def selfCheckMs : Nat := 10

/-- The conversion cycle, in ms (R95). -/
def cycleMs : Nat := 4

/-- The onset level of a short level code, in 10 mA (R117). -/
def shortOnsetLevel (c : Nat) : Nat :=
  if c = 0 then 5000 else if c = 1 then 10000 else if c = 2 then 20000 else 30000

/-- The clearance level of a short level code, in 10 mA: half the onset level (R117). -/
def shortClearanceLevel (c : Nat) : Nat := shortOnsetLevel c / 2

end Sys2Proof.Machine

namespace Sys2Proof

open Sys2Proof.Machine

/-! ## Fields of frames -/

/-- The claim-timeout code of a CLAIM's timing byte: its high nibble (R9, R192). -/
def ClaimPayload.timeoutCode (p : ClaimPayload) : Nat := (p.timing.extractLsb' 4 4).toNat

/-- The settle code of a CLAIM's timing byte: its low nibble (R9, R192). -/
def ClaimPayload.settleCode (p : ClaimPayload) : Nat := (p.timing.extractLsb' 0 4).toNat

/-- The connection state that a STATUS announces: bits 7 to 5 of its state byte (R192). -/
def StatusPayload.connState (p : StatusPayload) : ConnState := ConnState.ofCode (p.stateByte.extractLsb' 5 3)

/-- The path that a STATUS announces: bits 4 to 3 of its state byte (R192). -/
def StatusPayload.path (p : StatusPayload) : Path := Path.ofCode (p.stateByte.extractLsb' 3 2)

/-- The status-period code of a STATUS: bits 2 to 1 of its state byte (R192). -/
def StatusPayload.period (p : StatusPayload) : BitVec 2 := p.stateByte.extractLsb' 1 2

/-- The sleep flag of a STATUS: bit 0 of its state byte (R192). -/
def StatusPayload.sleepFlag (p : StatusPayload) : Bool := p.stateByte.getLsbD 0

/-- The restarted flag of a STATUS: bit 6 of its flags byte (R192). -/
def StatusPayload.restartedFlag (p : StatusPayload) : Bool := p.flagsByte.getLsbD 6

/-! ## Defined values: the refresh-only test (R9) -/

/-- Whether a frame of known kind holds a field outside its defined values (R9, R192). -/
def Frame.refreshOnly : Frame → Bool
  | .trip p => !(decide (1 ≤ p.faultCode.toNat) && decide (p.faultCode.toNat ≤ 11)) || decide (1 < p.scope.toNat)
  | .claim p => decide (3 < p.timeoutCode) || decide (5 < p.settleCode)
  | .object p => decide (15 < p.target.toNat) || (ObjectReason.ofCode p.reason).isNone
  | .assent p => decide (15 < p.target.toNat)
  | .closed _ => false
  | .abandon p => !(decide (1 ≤ p.reason.toNat) && decide (p.reason.toNat ≤ 4))
  | .release => false
  | .status p =>
      (decide (200 < p.level.toNat) && decide (p.level ≠ 255))
        || decide (p.temperature.toInt < -40) || decide (125 < p.temperature.toInt)

/-! ## Classes of frames, and the empty check result -/

/-- An answer: ASSENT or OBJECT. -/
def FrameKind.isAnswer : FrameKind → Bool
  | .assent | .object => true
  | .trip | .claim | .closed | .abandon | .release | .status => false

/-- An own-connection frame: CLAIM, CLOSED, ABANDON or RELEASE. -/
def FrameKind.isOwnConnection : FrameKind → Bool
  | .claim | .closed | .abandon | .release => true
  | .trip | .object | .assent | .status => false

/-- No failed item. -/
def CheckItems.noneFailed : CheckItems := ⟨false, false, false⟩

end Sys2Proof

namespace Sys2Proof.Machine

/-! ## The configuration in the units of its users

Each accessor reads one field of the record as the number its count stands for. The committed record holds every field
from 1 to 21 (R169), and nothing reads these before the commit but the writing of the record itself; the 0 that an unset
field reads as here is reached by no state that a run reaches (log entry 24). -/

/-- A field's count as a number; 0 while unset. -/
def fieldNat (f : Option Half) : Nat := (f.getD 0).toNat

/-- The capacity in As: the count of 0.1 Ah times 360 (R100). -/
def ConfigRecord.capacityAs (c : ConfigRecord) : Nat := fieldNat c.capacity * 360

/-- The closure window in 2 mV: the count of 10 mV times 5 (R166, R194). -/
def ConfigRecord.windowCount (c : ConfigRecord) : Nat := fieldNat c.window * 5

/-- The dead-bus level in 2 mV (R166, R194). -/
def ConfigRecord.deadBusCount (c : ConfigRecord) : Nat := fieldNat c.deadBus * 5

/-- The bus OV limit in 2 mV (R166, R194). -/
def ConfigRecord.busOvCount (c : ConfigRecord) : Nat := fieldNat c.busOvLimit * 5

/-- The bus OV release in 2 mV: the limit less one fiftieth of it, rounded down to a whole count (R123). -/
def ConfigRecord.busOvReleaseCount (c : ConfigRecord) : Nat := fieldNat c.busOvLimit * 5 * 49 / 50

/-- The module OV trip in 2 mV (R120, R194). -/
def ConfigRecord.ovTripCount (c : ConfigRecord) : Nat := fieldNat c.ovTrip * 5

/-- The module OV release in 2 mV (R120, R194). -/
def ConfigRecord.ovReleaseCount (c : ConfigRecord) : Nat := fieldNat c.ovRelease * 5

/-- The module UV trip in 2 mV (R121, R194). -/
def ConfigRecord.uvTripCount (c : ConfigRecord) : Nat := fieldNat c.uvTrip * 5

/-- The module UV release in 2 mV (R121, R194). -/
def ConfigRecord.uvReleaseCount (c : ConfigRecord) : Nat := fieldNat c.uvRelease * 5

/-- The OC discharge limit in 10 mA (R115, R194). -/
def ConfigRecord.ocDsgCount (c : ConfigRecord) : Nat := fieldNat c.ocDsgLimit * 100

/-- The OC charge limit in 10 mA (R115, R194). -/
def ConfigRecord.ocChgCount (c : ConfigRecord) : Nat := fieldNat c.ocChgLimit * 100

/-- The run length in samples: the detect time divided by 4 (R115). -/
def ConfigRecord.runLength (c : ConfigRecord) : Nat := fieldNat c.ocDetect / 4

/-- The temperature trip in degrees Celsius (R122, R194). -/
def ConfigRecord.tempTripC (c : ConfigRecord) : Int := (c.tempTrip.getD 0).toInt

/-- The temperature release in degrees Celsius (R122, R194). -/
def ConfigRecord.tempReleaseC (c : ConfigRecord) : Int := (c.tempRelease.getD 0).toInt

/-- The empty voltage in 2 mV (R106, R194). -/
def ConfigRecord.emptyCount (c : ConfigRecord) : Nat := fieldNat c.emptyVoltage * 5

/-- The full voltage in 2 mV (R106, R194). -/
def ConfigRecord.fullCount (c : ConfigRecord) : Nat := fieldNat c.fullVoltage * 5

/-- The status-period code as the two bits of the state byte (R192). -/
def ConfigRecord.periodCode (c : ConfigRecord) : BitVec 2 := (c.statusPeriod.getD 0).setWidth 2

/-- The timing byte of the own CLAIM: claim-timeout code in the high nibble, settle code in the low (R48, R192). -/
def ConfigRecord.timingByte (c : ConfigRecord) : Byte :=
  (c.claimTimeout.getD 0).extractLsb' 0 4 ++ (c.settleCode.getD 0).extractLsb' 0 4

/-! ## The sample -/

/-- A number clamped to a range. -/
def clampInt (lo hi x : Int) : Int := max lo (min hi x)

/-- The magnitude of the difference of two voltages (R54, R65, R76: "taken without sign"). -/
def voltageGap (a b : Half) : Nat := (a.toNat - b.toNat) + (b.toNat - a.toNat)

/-- A sample record from the inputs of its cycle, each clamped at the edge of its range (R96). -/
def Sample.ofInputs (i : SampleInputs) (cycle : BitVec 32) : Sample where
  vmod := BitVec.ofNat 16 (min i.vms 65535)
  vbus := BitVec.ofNat 16 (min i.vbs 65535)
  current := BitVec.ofInt 16 (clampInt (-32768) 32767 i.isense)
  temp := BitVec.ofInt 8 (clampInt (-40) 125 i.ts)
  cycle := cycle

/-- Whether a sample sees the bus live: Vbus at or above the dead-bus level (R54, R65, R76). -/
def Sample.busLive (x : Sample) (c : ConfigRecord) : Bool := decide (c.deadBusCount ≤ x.vbus.toNat)

/-- The closure window test on a sample: the bus is dead, or Vmod lies within the window of Vbus (R54). -/
def Sample.withinWindow (x : Sample) (c : ConfigRecord) : Bool :=
  !x.busLive c || decide (voltageGap x.vmod x.vbus ≤ c.windowCount)

end Sys2Proof.Machine
end

