-- ==== Sys2Proof/Machine/Flags.lean ====
section
/-! DEFINITION. The flags of the part: the event status and ALERT (R185, R188), the flags derived from the fault register (R135), the level (R103) and the STATUS frame that carries them (R93). -/

namespace Sys2Proof.Machine

/-! ## Events -/

/-- The bit of an event in the event status (R185). -/
def Event.bit (e : Event) : BitVec 14 := 1#14 <<< e.number

/-- Sets an event; one already set stays set (R185). -/
def State.setEvent (e : Event) (s : State) : State :=
  { s with port := { s.port with events := s.port.events ||| e.bit } }

/-- Whether an event is set. -/
def State.hasEvent (s : State) (e : Event) : Bool := s.port.events.getLsbD e.number

/-- ALERT is driven low while at least one event is both set and enabled (R188). -/
def State.alertLow (s : State) : Bool := decide (s.port.events &&& s.port.enables ≠ 0)

/-! ## Outputs computed from other state -/

/-- MWK is driven low in the wake pulse and at no other time (R158). -/
def State.mwkDriven (s : State) : Bool := decide (s.power.phase = .wakePulse)

/-- What a gate output carries: nothing, its off level, its on level (R90, R91). -/
inductive GateDrive where
  | undriven
  | off
  | on
deriving DecidableEq, Repr

/-- What a gate output carries for a commanded state, true for CLOSED (R90, R91): nothing while VKA is absent; the off level
of the keep-alive domain's hold from the entry into SLEEP to the main domain's power-up; else the commanded level. -/
def State.gate (closed : Bool) (s : State) : GateDrive :=
  match s.power.phase with
  | .unpowered => .undriven
  | .sleep | .wakePulse | .powerUp => .off
  | .powerOnReset | .pinReset | .serviceReset | .run => if closed then .on else .off

/-- The output CHG (R90, R91). -/
def State.chgGate (s : State) : GateDrive := s.gate s.switches.chg

/-- The output DSG (R90, R91). -/
def State.dsgGate (s : State) : GateDrive := s.gate s.switches.dsg

/-- SDO is driven from the fall of SSN to its rise, and not in a reset (R177, R180). -/
def State.sdoDriven (s : State) : Bool := decide (s.port.line = .openRun) || decide (s.port.line = .openWaking)

/-- What SDO carries in byte `n`, counted from 0, of the transaction that carries the command code `code` (R177, R178):
nothing while it is not driven; 0 in the command and argument bytes; then the result code, the data, and 0 beyond the data.
While no response has been given it carries 0. -/
def State.sdoByte (code : Byte) (n : Nat) (s : State) : Option Byte :=
  if s.sdoDriven then
    match s.port.response with
    | none => some 0
    | some r =>
      if n ≤ portArgumentCount code then some 0
      else some ((r.result.code :: r.data).getD (n - portArgumentCount code - 1) 0)
  else none

/-- The power state of the manual is SLEEP up to the end of the power-up (R151, R159). -/
def State.asleep (s : State) : Bool :=
  match s.power.phase with
  | .sleep | .wakePulse | .powerUp => true
  | .unpowered | .powerOnReset | .pinReset | .serviceReset | .run => false

/-! ## The fault register -/

/-- The record of a source (R127). -/
def FaultRegister.get (r : FaultRegister) : Source → SourceRecord
  | .short => r.short
  | .tempTrip => r.tempTrip
  | .busOv => r.busOv
  | .dupId => r.dupId
  | .ocDsg => r.ocDsg
  | .ocChg => r.ocChg
  | .modOv => r.modOv
  | .modUv => r.modUv
  | .busSilent => r.busSilent
  | .rxDegraded => r.rxDegraded

/-- The register with the record of a source replaced. -/
def FaultRegister.set (r : FaultRegister) (src : Source) (x : SourceRecord) : FaultRegister :=
  match src with
  | .short => { r with short := x }
  | .tempTrip => { r with tempTrip := x }
  | .busOv => { r with busOv := x }
  | .dupId => { r with dupId := x }
  | .ocDsg => { r with ocDsg := x }
  | .ocChg => { r with ocChg := x }
  | .modOv => { r with modOv := x }
  | .modUv => { r with modUv := x }
  | .busSilent => { r with busSilent := x }
  | .rxDegraded => { r with rxDegraded := x }

/-- Whether a source is HELD or LAPSED. -/
def SourceRecord.heldOrLapsed (x : SourceRecord) : Bool :=
  match x.state with
  | .held | .lapsed => true
  | .clear | .active => false

/-- The held-fault-present flag: at least one source is HELD or LAPSED (R135). -/
def FaultRegister.heldPresent (r : FaultRegister) : Bool := Source.all.any fun src => (r.get src).heldOrLapsed

/-- Whether at least one source is ACTIVE (R152). -/
def FaultRegister.anyActive (r : FaultRegister) : Bool :=
  Source.all.any fun src => decide ((r.get src).state = .active)

/-- Whether a source is ACTIVE. -/
def State.isActive (s : State) (src : Source) : Bool := decide ((s.fault.register.get src).state = .active)

/-- Whether a hold covers a source (R128): its port hold bit, or the closing hold for the over-current sources. A class A
source is never held. -/
def State.isHeld (s : State) (src : Source) : Bool :=
  src.classB && (s.fault.portHolds.getLsbD (src.code - 1) || (s.fault.closingHold && src.isOverCurrent))

/-! ## The level and the STATUS frame -/

/-- The level in half-percent, or 255 while it is unknown (R103). -/
def State.level (s : State) : Byte :=
  if s.charge.levelValid then BitVec.ofNat 8 (s.charge.accAs * 200 / s.config.capacityAs) else 255

/-- A byte from a bit at a position. -/
def flagBit (b : Bool) (n : Nat) : Byte := if b then 1#8 <<< n else 0

/-- The state byte of a STATUS (R192, R93). -/
def State.statusStateByte (s : State) : Byte :=
  (s.conn.state.code ++ s.conn.path.code ++ s.config.periodCode) ++ BitVec.ofBool s.conn.sleepPending

/-- The flags byte of a STATUS (R192, R93). -/
def State.statusFlagsByte (s : State) : Byte :=
  flagBit s.fault.register.heldPresent 7 ||| flagBit s.conn.restarted 6 ||| flagBit s.charge.levelValid 5
    ||| flagBit s.power.checkFailed 4 ||| flagBit (decide (s.conn.state = .lockout)) 3

/-- The STATUS built from the state as it stands (R93). -/
def State.buildStatus (s : State) : StatusPayload where
  voltage := (s.meas.sample.map (·.vmod)).getD 0
  current := (s.meas.sample.map (·.current)).getD 0
  level := s.level
  temperature := (s.meas.sample.map (·.temp)).getD 0
  stateByte := s.statusStateByte
  flagsByte := s.statusFlagsByte

end Sys2Proof.Machine
end

