-- ==== Sys2Proof/Machine/Ops.lean ====
section
/-! DEFINITION. The operations that several commands share: the transmit list, the roster's table, the connection state, claims, the Fault Unit's trips and onsets, the bus-wide trip, SILENT, the entry into SLEEP, the eligibility test and the answer of the service port. -/

namespace Sys2Proof.Machine

/-- The answer of a command: every meaning answers a next state (log entry 34). -/
abbrev Answer := Host.Outcome State Fault Refusal

/-! ## The transmit list (R12, R13, R14) -/

/-- The kind of the frame that is on the line as the own attempt (R3, R5). -/
def Mbi.onLine (m : Mbi) : Option FrameKind :=
  match m.tx with
  | .none => none
  | .sending k => some k
  | .collided k => some k

/-- The rank order of the list: by kind code, since every frame carries the own id (R12). -/
def TxFrame.rank (f : TxFrame) : Nat := f.frame.kind.code.toNat

/-- A frame joins the list behind the frames of its rank (R12). -/
def insertFrame (f : TxFrame) : List TxFrame → List TxFrame
  | [] => [f]
  | g :: gs => if f.rank < g.rank then f :: g :: gs else g :: insertFrame f gs

/-- The first frame of a kind leaves the list. -/
def removeKind (k : FrameKind) : List TxFrame → List TxFrame
  | [] => []
  | g :: gs => if g.frame.kind = k then gs else g :: removeKind k gs

/-- The first frame of a kind. -/
def findKind (k : FrameKind) : List TxFrame → Option TxFrame
  | [] => none
  | g :: gs => if g.frame.kind = k then some g else findKind k gs

/-- The failed-attempt count of the first frame of a kind rises by 1 (R11). -/
def bumpFailed (k : FrameKind) : List TxFrame → List TxFrame
  | [] => []
  | g :: gs => if g.frame.kind = k then { g with failed := g.failed + 1 } :: gs else g :: bumpFailed k gs

/-- A pending STATUS takes a new payload and keeps its place and count (R13). -/
def replaceStatus (p : StatusPayload) (f : TxFrame) : TxFrame :=
  match f.frame with
  | .status _ => { f with frame := .status p }
  | _ => f

/-- Two TRIPs merge: code and value of the newer, BUS if either carried BUS (R13). -/
def mergeTrips (new old : TripPayload) : TripPayload :=
  { new with scope := if new.scope = Scope.bus.code ∨ old.scope = Scope.bus.code then Scope.bus.code else Scope.localOnly.code }

/-- A pending TRIP merges with a newer one and keeps its place and count (R13). -/
def mergeTrip (p : TripPayload) (f : TxFrame) : TxFrame :=
  match f.frame with
  | .trip old => { f with frame := .trip (mergeTrips p old) }
  | _ => f

/-- Whether a frame of a kind is in a list. -/
def hasKind (k : FrameKind) (l : List TxFrame) : Bool := (findKind k l).isSome

/-- The answers pending (R12). -/
def answersPending (l : List TxFrame) : Nat := (l.filter fun f => f.frame.kind.isAnswer).length

/-- Whether an own-connection frame is pending (R74). -/
def ownConnectionPending (l : List TxFrame) : Bool := l.any fun f => f.frame.kind.isOwnConnection

/-- A frame joins the list with a failed-attempt count of 0 (R13). -/
def Mbi.join (f : Frame) (m : Mbi) : Mbi := { m with list := insertFrame ⟨f, 0⟩ m.list }

/-- A STATUS is taken into the list: it replaces a pending one or joins (R13). -/
def Mbi.putStatus (p : StatusPayload) (m : Mbi) : Mbi :=
  if hasKind .status m.list then { m with list := m.list.map (replaceStatus p) } else m.join (.status p)

/-- A TRIP is taken into the list: it merges with a pending one or joins (R13). -/
def Mbi.putTrip (p : TripPayload) (m : Mbi) : Mbi :=
  if hasKind .trip m.list then { m with list := m.list.map (mergeTrip p) } else m.join (.trip p)

/-- A STATUS handed over, held while the pending one is on the line (R13). -/
def Mbi.handStatus (p : StatusPayload) (m : Mbi) : Mbi :=
  if m.onLine = some .status then { m with heldStatus := some p } else m.putStatus p

/-- A TRIP handed over, held and merged while the pending one is on the line (R13). -/
def Mbi.handTrip (p : TripPayload) (m : Mbi) : Mbi :=
  if m.onLine = some .trip then { m with heldTrip := some (match m.heldTrip with | some old => mergeTrips p old | none => p) }
  else m.putTrip p

/-- The frames held for the end of an attempt are taken into the list (R13). -/
def Mbi.releaseHeld (m : Mbi) : Mbi :=
  let m := match m.heldTrip with
    | some p => { m.putTrip p with heldTrip := none }
    | none => m
  match m.heldStatus with
  | some p => { m.putStatus p with heldStatus := none }
  | none => m

/-- The end of an attempt that failed or lost arbitration as a pending withdrawal sees it: the CLAIM is withdrawn, and
counts as neither sent nor dropped (R14). -/
def Mbi.takeWithdrawal (m : Mbi) : Mbi := { m with list := removeKind .claim m.list, withdrawal := none }

/-- Arbitration is lost: the frame keeps its place and count and TEC is unchanged (R4); a withdrawal of it and frames
held for the end of the attempt are taken (R13, R14). -/
def Mbi.loseArbitration (m : Mbi) : Mbi :=
  match m.tx with
  | .sending k =>
    let m := { m with tx := .none, line := .busy }
    (if k = .claim ∧ m.withdrawal.isSome then m.takeWithdrawal else m).releaseHeld
  | .none => m
  | .collided _ => m

/-- The whole list is discarded, with held frames and a pending withdrawal (R13, R15). -/
def Mbi.discardList (m : Mbi) : Mbi :=
  { m with list := [], tx := .none, heldStatus := none, heldTrip := none, withdrawal := none }

/-- A block hands a frame to the MBI (R13). In LISTEN, SILENT and OFF it is not queued. -/
def State.queueFrame (f : Frame) (s : State) : State :=
  if s.mbi.bus ≠ .active then s
  else match f with
    | .status p => { s with mbi := s.mbi.handStatus p }
    | .trip p => { s with mbi := s.mbi.handTrip p }
    | .object p =>
      if 4 ≤ answersPending s.mbi.list then s.setEvent .answerDropped else { s with mbi := s.mbi.join (.object p) }
    | .assent p =>
      if 4 ≤ answersPending s.mbi.list then s.setEvent .answerDropped else { s with mbi := s.mbi.join (.assent p) }
    | .claim p => { s with mbi := s.mbi.join (.claim p) }
    | .closed p => { s with mbi := s.mbi.join (.closed p) }
    | .abandon p => { s with mbi := s.mbi.join (.abandon p) }
    | .release => { s with mbi := s.mbi.join .release }

/-- The Connection Controller hands over a STATUS built from the state as it stands (R92, R93). -/
def State.handStatus (s : State) : State := s.queueFrame (.status s.buildStatus)

/-- On an idle line an ACTIVE station offers the head of its list at once (R3, R13). Taken at the end of a command, so
that the head is the one the whole change has left. -/
def State.offer (s : State) : State :=
  if s.power.phase = .run ∧ s.mbi.bus = .active ∧ s.mbi.line = .idle ∧ s.mbi.tx = .none then
    match s.mbi.list with
    | [] => s
    | f :: _ => { s with mbi := { s.mbi with tx := .sending f.frame.kind, line := .busy } }
  else s

/-! ## The Roster's table (R22, R25, R35) -/

/-- The entry of a slot; none is EMPTY. -/
def rosterGet (id : StationId) : List RosterSlot → Option RosterEntry
  | [] => none
  | x :: xs => if x.id = id then some x.entry else rosterGet id xs

/-- The table with the entry of a slot set, ids ascending. -/
def rosterSet (id : StationId) (e : RosterEntry) : List RosterSlot → List RosterSlot
  | [] => [⟨id, e⟩]
  | x :: xs =>
    if id.toNat < x.id.toNat then ⟨id, e⟩ :: x :: xs
    else if x.id = id then ⟨id, e⟩ :: xs
    else x :: rosterSet id e xs

/-- The table with a slot made EMPTY (R34). -/
def rosterClear (id : StationId) (r : List RosterSlot) : List RosterSlot := r.filter fun x => decide (x.id ≠ id)

/-- The present set, in ascending order of id (R35). -/
def presentSet (r : List RosterSlot) : List StationId :=
  (r.filter fun x => decide (x.entry.state = .present)).map (·.id)

/-- Whether an entry announces a closure (R35). -/
def RosterEntry.announcesClosure (e : RosterEntry) : Bool :=
  !e.trippedLocal && (decide (e.announced = some .closing) || decide (e.announced = some .connected))

/-- Whether any peer announces a closure (R35). -/
def anyAnnounces (r : List RosterSlot) : Bool := r.any fun x => x.entry.announcesClosure

/-- An entry as an EMPTY slot's first frame makes it (R25). -/
def RosterEntry.fresh : RosterEntry :=
  { state := .present, age := 0, announced := none, trippedLocal := false, lastClaim := none, status := none }

/-- The entry of a slot after the refresh (R25). -/
def refreshedEntry (id : StationId) (r : List RosterSlot) : RosterEntry :=
  match rosterGet id r with
  | some e => { e with state := .present, age := 0 }
  | none => .fresh

/-- A frame from X refreshes entry X and the update of its kind follows, as one change (R25). -/
def State.rosterFrame (id : StationId) (update : RosterEntry → RosterEntry) (s : State) : State :=
  let s := if (rosterGet id s.roster).isNone then s.setEvent .peerArrived else s
  { s with roster := rosterSet id (update (refreshedEntry id s.roster)) s.roster }

/-- The status period of an entry in ms: that of its code, or 1000 ms without a status part (R31). -/
def RosterEntry.periodMs (e : RosterEntry) : Nat :=
  match e.status with
  | some p => statusPeriodMs p.period.toNat
  | none => 1000

/-- A PRESENT or ASLEEP entry of an awaited id is marked STALE, its age kept (R33). -/
def markSlot (ids : List StationId) (x : RosterSlot) : RosterSlot :=
  if x.id ∈ ids then { x with entry := { x.entry with state := .stale } } else x

/-- The claim timeout marks every id still awaited at once (R33). -/
def State.markStale (ids : List StationId) (s : State) : State :=
  let marks := s.roster.any fun x => decide (x.id ∈ ids) && decide (x.entry.state ≠ .stale)
  let s := if marks then s.setEvent .peerStale else s
  { s with roster := s.roster.map (markSlot ids) }

/-! ## The switches and the connection state (R70, R73, R81, R90) -/

/-- Both switches are commanded OPEN (R90). -/
def State.openSwitches (s : State) : State := { s with switches := { chg := false, dsg := false } }

/-- The switches as the path sources leave them: CHG closed unless MOD_OV is ACTIVE, DSG closed unless MOD_UV is
(R77, R81). -/
def State.pathSwitches (s : State) : Switches := { chg := !s.isActive .modOv, dsg := !s.isActive .modUv }

/-- The path of a connected station, by the path sources (R79, R81). -/
def State.sourcePath (s : State) : Path :=
  if s.isActive .modOv then .dischargeOnly else if s.isActive .modUv then .chargeOnly else .both

/-- Whether the record names the station itself. -/
def State.ownRecord (s : State) : Bool :=
  match s.closure.record with
  | some r => decide (r.holder = s.ownId)
  | none => false

/-- The closure record as a change of connection state leaves it: an own record clears when CLAIMING or CLOSING is left
for a state other than CLOSING (R44). -/
def State.recordAfter (new : ConnState) (s : State) : Option ClosureRecord :=
  if (s.conn.state = .claiming ∨ s.conn.state = .closing) ∧ new ≠ .closing ∧ s.ownRecord then none
  else s.closure.record

/-- The connection state changes: the settle and release timers of a state left stop (R78, R86), the path is that of the
new state (R70), the switches are open outside CLOSING and CONNECTED (R90), the own record clears (R44), the restarted
flag clears outside DETACHED and ISOLATED (R93); STATE_CHANGE is set and a STATUS handed over (R73). A state entered
again from itself is no change (R73). -/
def State.changeConn (new : ConnState) (path : Path) (s : State) : State :=
  if s.conn.state = new then s
  else
    let closes := decide (new = ConnState.closing) || decide (new = ConnState.connected)
    let s := { s with
      closure := { s.closure with record := s.recordAfter new }
      conn := { s.conn with
        state := new
        path := if new = ConnState.connected then path else Path.none
        settle := if new = ConnState.closing then s.conn.settle else none
        release := if new = ConnState.releasing then s.conn.release else none
        restarted := s.conn.restarted && (decide (new = ConnState.detached) || decide (new = ConnState.isolated)) }
      switches := if closes then s.switches else { chg := false, dsg := false } }
    (s.setEvent .stateChange).handStatus

/-- In CLOSING the switches follow the path sources; in CONNECTED the path does too, with STATE_CHANGE and a STATUS when
it changes; in the other states both switches stay open (R81, R82, R136). -/
def State.followPathSources (s : State) : State :=
  match s.conn.state with
  | .closing => { s with switches := s.pathSwitches }
  | .connected =>
    let path := s.sourcePath
    let changed := decide (path ≠ s.conn.path)
    let s := { s with switches := s.pathSwitches, conn := { s.conn with path := path } }
    if changed then (s.setEvent .stateChange).handStatus else s
  | .detached | .isolated | .claiming | .releasing | .tripped | .lockout => s

/-! ## Claims (R47, R54, R57, R62) -/

/-- The hold-off timer starts at its full length (R62). -/
def State.startHoldOff (s : State) : State :=
  { s with closure := { s.closure with holdOff := some (holdOffMs s.ownId) } }

/-- The claim in progress ends and its outcome is recorded (R47). -/
def State.endClaim (o : ClaimOutcome) (s : State) : State :=
  { s with closure := { s.closure with claim := none, lastOutcome := o } }

/-- An ABANDON with the current claim number is handed over (R57). -/
def State.queueAbandon (r : AbandonReason) (s : State) : State :=
  s.queueFrame (.abandon ⟨s.closure.claimNumber, r.code⟩)

/-- The pending CLAIM is withdrawn at once, or at the end of its attempt while it is on the line (R14). -/
def State.withdrawClaim (w : Withdrawal) (s : State) : State :=
  if s.mbi.onLine = some .claim then { s with mbi := { s.mbi with withdrawal := some w } }
  else { s with mbi := { s.mbi with list := removeKind .claim s.mbi.list } }

/-- A claim fails with hold-off: CLAIM_ABANDONED is set and the station returns to ISOLATED (R50, R53 to R55, R60). -/
def State.failClaim (o : ClaimOutcome) (s : State) : State :=
  (((s.endClaim o).startHoldOff).setEvent .claimAbandoned).changeConn .isolated .none

/-- A trip, a lockout or a followed bus-wide trip ends a claim in progress: a QUEUED CLAIM is withdrawn, no ABANDON is
queued (R59). -/
def State.abortClaim (o : ClaimOutcome) (s : State) : State :=
  match s.closure.claim with
  | none => s
  | some c =>
    match c.phase with
    | .queued => (s.withdrawClaim .trip).endClaim o
    | .awaiting _ _ => s.endClaim o

/-- The entry into CLOSING (R77): the closing hold is set before the switches are commanded closed by the path sources,
and the settle timer starts. -/
def State.enterClosing (s : State) : State :=
  let s := { s with fault := { s.fault with closingHold := true } }
  let s := { s with
    switches := s.pathSwitches
    conn := { s.conn with settle := some (settleMs (fieldNat s.config.settleCode)) } }
  s.changeConn .closing .none

/-- The closure window test with the awaited set empty (R54), on the latest sample; without one it fails (log entry 24:
no run reaches that). -/
def State.windowTest (s : State) : State :=
  let passes := match s.meas.sample with
    | some x => x.withinWindow s.config
    | none => false
  if passes then (s.endClaim .succeeded).enterClosing
  else (s.queueAbandon .window).failClaim .window

/-- The awaited set of a claim is captured at the successful transmission of its CLAIM, with the own record and the
claim timer, as one change; an empty set is tested at once (R40, R51). -/
def State.captureClaim (c : Claim) (s : State) : State :=
  let awaited := presentSet s.roster
  let s := { s with closure := { s.closure with
    record := some ⟨s.ownId, s.closure.claimNumber, none⟩
    claim := some { c with phase := .awaiting awaited (claimTimeoutMs (fieldNat s.config.claimTimeout)) } } }
  if awaited = [] then s.windowTest else s

/-! ## The Fault Unit: register, holds, trips (R127 to R142) -/

/-- Writes the record of a source; a change of the held-fault-present flag hands over a STATUS (R135). -/
def State.setSource (src : Source) (x : SourceRecord) (s : State) : State :=
  let s' := { s with fault := { s.fault with register := s.fault.register.set src x } }
  if s'.fault.register.heldPresent ≠ s.fault.register.heldPresent then s'.handStatus else s'

/-- A pending sleep is cancelled (R154). -/
def State.cancelSleep (s : State) : State :=
  if s.conn.sleepPending then
    (({ s with conn := { s.conn with sleepPending := false } } : State).setEvent .sleepCancelled).handStatus
  else s

/-- The description from which a trip is made (R138), with whether its cause is class A and whether it leads to LOCKOUT
whatever the window shows (R141). -/
structure TripCause where
  code      : FaultCode
  source    : Source
  scope     : Scope
  value     : Half
  classA    : Bool
  toLockout : Bool
deriving DecidableEq, Repr

/-- The scope of a source's trip (R138); a SHORT carries the scope its onset reported. -/
def Source.tripScope (src : Source) (reported : Scope) : Scope :=
  match src with
  | .short => reported
  | .busOv => .bus
  | .tempTrip | .dupId | .ocDsg | .ocChg | .modOv | .modUv | .busSilent | .rxDegraded => .localOnly

/-- The trip that a source's own action is (R138). -/
def Source.tripCause (src : Source) (value : Half) (reported : Scope) : TripCause :=
  { code := .of src, source := src, scope := src.tripScope reported, value := value, classA := !src.classB,
    toLockout := decide (src = .dupId) }

/-- The PATH_CONFLICT trip, recorded against the path source that became ACTIVE second (R137). -/
def conflictCause (src : Source) (value : Half) : TripCause :=
  { code := .pathConflict, source := src, scope := .localOnly, value := value, classA := false, toLockout := false }

/-- The history with a record appended; the oldest of four goes (R144). -/
def appendTrip (h : List TripRecord) (r : TripRecord) : List TripRecord :=
  if 4 ≤ h.length then h.drop 1 ++ [r] else h ++ [r]

/-- The number of the next trip record: the counter's value after its rise, or one above the newest record's once the
counter has saturated (R144). An empty history with a saturated counter is reached by no run (log entry 29). -/
def FaultUnit.nextTripNumber (f : FaultUnit) : Half :=
  if f.tripCounter < 65535 then BitVec.ofNat 16 (f.tripCounter + 1)
  else match f.history.getLast? with
    | some r => r.number + 1
    | none => 65535

/-- Steps 2 to 4 of the trip procedure: window, counter, history (R139, R140, R143, R144). `before` is the connection
state as it stood before the trip. -/
def State.recordTrip (d : TripCause) (before : ConnState) (s : State) : State :=
  let r : TripRecord :=
    { number := s.fault.nextTripNumber, code := d.code, source := d.source, scope := d.scope, connState := before,
      value := d.value, accumulator := if s.charge.levelValid then s.charge.accAs else 0 }
  { s with fault := { s.fault with
    lockout := if d.classA then some lockoutMs else s.fault.lockout
    tripCounter := min 65535 (s.fault.tripCounter + 1)
    history := appendTrip s.fault.history r } }

/-- The record clears, whoever holds it, and the quiet period starts (R43, R63, R148). -/
def State.takeBusTrip (s : State) : State :=
  { s with closure := { s.closure with record := none, quiet := some quietMs } }

/-- The trip procedure in its seven steps (R139), less the removal of the closing hold. -/
def State.tripCore (d : TripCause) (s : State) : State :=
  let before := s.conn.state
  let lock := d.toLockout || (d.classA && s.fault.lockout.isSome)
  let s := s.openSwitches.recordTrip d before
  let s := s.queueFrame (.trip ⟨BitVec.ofNat 8 d.code.code, d.scope.code, d.value⟩)
  let s := s.abortClaim .tripped
  let s := s.changeConn (if lock || decide (before = .lockout) then .lockout else .tripped) .none
  let s := s.setEvent .tripTaken
  if d.scope = .bus then s.takeBusTrip else s

/-- Postponed action of an over-current source after the closing hold is gone (R132): a HELD source that the port does
not hold becomes ACTIVE, which cancels a pending sleep (R154), and trips. -/
def State.postponedOverCurrent (src : Source) (s : State) : State :=
  let x := s.fault.register.get src
  if x.state = .held ∧ s.isHeld src = false then
    ((s.setSource src { x with state := .active }).cancelSleep).tripCore (src.tripCause (x.value.getD 0) .localOnly)
  else s

/-- The closing hold is removed, with postponed action of OC_DSG and then OC_CHG (R132, R134). -/
def State.liftClosingHold (s : State) : State :=
  if s.fault.closingHold then
    (({ s with fault := { s.fault with closingHold := false } } : State).postponedOverCurrent .ocDsg).postponedOverCurrent .ocChg
  else s

/-- A trip of this station (R139): the procedure, and in CLOSING the removal of the closing hold once the switches are
open (R87, R134). -/
def State.takeTrip (d : TripCause) (s : State) : State :=
  if s.conn.state = .closing then (s.tripCore d).liftClosingHold else s.tripCore d

/-- The action of a source that has become ACTIVE (R127, R136, R137): a trip, LOCKOUT, or the path. -/
def State.takeAction (src : Source) (value : Half) (reported : Scope) (s : State) : State :=
  match src with
  | .modOv => if s.isActive .modUv then s.takeTrip (conflictCause src value) else s.followPathSources
  | .modUv => if s.isActive .modOv then s.takeTrip (conflictCause src value) else s.followPathSources
  | .short | .tempTrip | .busOv | .dupId | .ocDsg | .ocChg | .busSilent | .rxDegraded =>
    s.takeTrip (src.tripCause value reported)

/-- Whether the Fault Unit acts on an onset: from the commit onward, and on DUP_ID from power-on (R129). -/
def State.actsOn (s : State) (src : Source) : Bool := s.committed || decide (src = .dupId)

/-- An onset is taken according to the source's state and whether it is held (R130); before the commit an onset only
updates the condition (R129). -/
def State.takeOnset (src : Source) (value : Half) (reported : Scope) (s : State) : State :=
  let x := s.fault.register.get src
  if s.actsOn src then
    match x.state with
    | .clear | .lapsed =>
      if s.isHeld src then (s.setSource src ⟨.held, true, some value⟩).setEvent .heldFault
      else ((s.setSource src ⟨.active, true, some value⟩).cancelSleep).takeAction src value reported
    | .active =>
      if src.isTrip then (s.setSource src ⟨.active, true, some value⟩).takeAction src value reported
      else s.setSource src { x with present := true }
    | .held => s.setSource src { x with present := true }
  else s.setSource src { x with present := true }

/-- A clearance is taken according to the source's state (R131). -/
def State.takeClearance (src : Source) (s : State) : State :=
  let x := s.fault.register.get src
  match x.state with
  | .held => s.setSource src ⟨.lapsed, false, none⟩
  | .active =>
    if src.isPath then (s.setSource src ⟨.clear, false, none⟩).followPathSources
    else s.setSource src { x with present := false }
  | .clear | .lapsed => s.setSource src { x with present := false }

/-- Postponed action of a source whose last hold a SET_HOLDS has removed (R132, R133). -/
def State.postponed (src : Source) (s : State) : State :=
  let x := s.fault.register.get src
  if x.state = .held ∧ s.isHeld src = false then
    ((s.setSource src { x with state := .active }).cancelSleep).takeAction src (x.value.getD 0) .localOnly
  else s

/-- A station that did not originate a bus-wide trip takes it and follows it by its connection state (R88, R89, R148). -/
def State.followBusTrip (s : State) : State :=
  let s := s.takeBusTrip
  match s.conn.state with
  | .claiming => ((s.abortClaim .busTrip).changeConn .isolated .none).setEvent .busTripFollowed
  | .closing => ((s.openSwitches.changeConn .isolated .none).setEvent .busTripFollowed).liftClosingHold
  | .connected => (s.openSwitches.changeConn .isolated .none).setEvent .busTripFollowed
  | .releasing => s.setEvent .busTripFollowed
  | .detached | .isolated | .tripped | .lockout => s

/-! ## What sleep and resets leave (R20, R37, R46, R61, R94, R126, R150, R151, R161) -/

/-- The MBI in OFF: list and counts gone, the permanent-silence mark as given (R19, R20). -/
def Mbi.offState (mark : Bool) : Mbi :=
  { bus := .off, line := .unsynced, tx := .none, list := [], heldStatus := none, heldTrip := none, withdrawal := none,
    tec := 0, recCount := 0, rejectMuted := false, permanentSilence := mark, goodCount := 0, silenceTimer := none,
    slotDriven := false }

/-- The Closure Engine with nothing in it (R46, R61, R63). -/
def Closure.empty : Closure :=
  { record := none, claimNumber := 0, claim := none, lastOutcome := .none, holdOff := none, quiet := none }

/-- The Connection Controller at rest in a state, with the joined flag as given (R94). The restarted flag is clear: while a
reset or the wake sequence lasts that is the model's choice, since R93 sets the flag at its end (log entry 42). -/
def Conn.atRest (st : ConnState) (joined : Bool) : Conn :=
  { state := st, path := .none, joined := joined, sleepPending := false, settle := none, release := none,
    statusTimer := none, restarted := false }

/-- The detectors with every run at 0 and every condition absent, disarmed (R116, R117, R126). -/
def Detectors.quiet : Detectors :=
  { runDsg := 0, runChg := 0, tempTrip := false, busOv := false, ocDsg := false, ocChg := false, modOv := false,
    modUv := false, short := false, shortArmed := false, wakeCurrentArmed := false, wakeCurrentRun := 0 }

/-- The moment at which a pending sleep is entered: RUN, the flag set, the list empty, SSN high, no service reset
waiting, no self-check running (R153, R164, R176; log entry 23). -/
def State.sleepDue (s : State) : Bool :=
  decide (s.power.phase = .run) && s.conn.sleepPending && decide (s.mbi.list = []) && decide (s.port.line = .released)
    && !s.port.resetPending && decide (s.power.check ≠ .running)

/-- The connection state at wake (R94, R152, R159). -/
def State.wakeConn (s : State) : ConnState := if s.conn.joined then .isolated else .detached

/-- The entry into SLEEP as one change (R151, R155). What the main domain loses stands at its values at wake (log entry
13). -/
def State.enterSleep (s : State) : State :=
  { s with
    mbi := .offState s.mbi.permanentSilence
    roster := []
    closure := .empty
    conn := .atRest s.wakeConn s.conn.joined
    switches := { chg := false, dsg := false }
    meas := { sample := none, cycleTimer := none }
    det := { Detectors.quiet with wakeCurrentArmed := s.committed }
    fault := { s.fault with register := .quiet, closingHold := false, lockout := none }
    power :=
      { phase := .sleep, latch := .none, wakeLineArmed := true, wakeLineRun := 0, pulseTimer := none, check := .notRun,
        checkTimer := none, checkResult := .noneFailed, checkFailed := false, checkFlag := s.power.checkFlag,
        wakeCheck := false, commitCheck := false }
    port := { s.port with events := 0, enables := 0 } }

/-- A self-check starts: conversion pauses (R95, R162). The commit marks the one that it starts (R164). -/
def State.startSelfCheck (s : State) : State :=
  { s with
    meas := { s.meas with cycleTimer := none }
    power := { s.power with
      check := .running, checkTimer := some selfCheckMs, checkResult := .noneFailed, commitCheck := false } }

/-! ## SILENT and the duplicate id (R15, R16, R18, R50, R60) -/

/-- The Closure Engine's side of an entry into SILENT: a QUEUED claim ends DROPPED, an AWAITING one SILENT (R50, R60);
none in progress, nothing happens. -/
def State.claimMeetsSilence (s : State) : State :=
  match s.closure.claim with
  | none => s
  | some c =>
    match c.phase with
    | .queued => s.failClaim .dropped
    | .awaiting _ _ => s.failClaim .silent

/-- The list is discarded at an entry into SILENT and each block whose frame goes is told (R15). -/
def State.discardFrames (s : State) : State := { s with mbi := s.mbi.discardList }

/-- TEC as the measured value of BUS_SILENT (R15, R138). -/
def State.tecValue (s : State) : Half := BitVec.ofNat 16 s.mbi.tec

/-- REC as the measured value of RX_DEGRADED (R17, R138). -/
def State.recValue (s : State) : Half := BitVec.ofNat 16 s.mbi.recCount

/-- A start mark is read on MBD: in SILENT the silence timer starts again, unless the permanent-silence mark has stopped
it (R16). -/
def State.startMarkRead (s : State) : State :=
  if s.mbi.bus = .silent ∧ s.mbi.permanentSilence = false then
    { s with mbi := { s.mbi with silenceTimer := some silenceMs } }
  else s

/-- The record clears if the given peer holds it (R34, R42). -/
def State.clearRecordOf (id : StationId) (s : State) : State :=
  match s.closure.record with
  | some r => if r.holder = id then { s with closure := { s.closure with record := none } } else s
  | none => s

/-- The MBI enters SILENT because TEC has reached 128 (R15, R16). The discard with the claim's end and the report of
BUS_SILENT fall together, and `race` gives the order (R50, R60). With a sleep pending and the discard first, the part
sleeps and no trip is recorded (R154). -/
def State.enterSilent (race : Race) (s : State) : State :=
  let s := { s with mbi := { s.mbi with bus := .silent, goodCount := 0, silenceTimer := some silenceMs } }
  let value := s.tecValue
  match race with
  | .controllerFirst =>
    let s := s.discardFrames.claimMeetsSilence
    if s.sleepDue then s.enterSleep else s.takeOnset .busSilent value .localOnly
  | .faultFirst => (s.takeOnset .busSilent value .localOnly).discardFrames.claimMeetsSilence

/-- The MBI detects a duplicate id (R18): the mark is set and SILENT entered, its count and timer standing still (R16);
DUP_ID is reported before the list is discarded; an entry into SILENT reports BUS_SILENT present as well (R15, R129). -/
def State.duplicateId (s : State) : State :=
  let entered := decide (s.mbi.bus ≠ .silent)
  let s := { s with mbi := { s.mbi with bus := .silent, permanentSilence := true, goodCount := 0, silenceTimer := none } }
  let s := s.takeOnset .dupId (s.ownId.setWidth 16) .localOnly
  let s := s.discardFrames.claimMeetsSilence
  if entered then s.takeOnset .busSilent s.tecValue .localOnly else s

/-! ## Eligibility (R74, R75, R76, R48) -/

/-- What the voltage condition of R74 finds on the latest sample (R76). -/
inductive VoltageVerdict where
  | noSample
  | holds
  | outsideWindow
  | deadBesideClosure
deriving DecidableEq, Repr

/-- The voltage condition (R76). -/
def State.voltageVerdict (s : State) : VoltageVerdict :=
  match s.meas.sample with
  | none => .noSample
  | some x =>
    if x.busLive s.config then
      if voltageGap x.vmod x.vbus ≤ s.config.windowCount then .holds else .outsideWindow
    else if anyAnnounces s.roster then .deadBesideClosure else .holds

/-- The conditions of R74 other than the voltage condition, in its order. -/
def State.claimConditions (s : State) : List Bool :=
  [decide (s.conn.state = .isolated), decide (s.power.check = .passed), !s.conn.sleepPending,
    decide (s.mbi.bus = .active), !s.mbi.rejectMuted, s.closure.record.isNone, s.closure.holdOff.isNone,
    s.closure.quiet.isNone, !ownConnectionPending s.mbi.list]

/-- A claim begins (R48). -/
def State.beginClaim (s : State) : State :=
  let vmod := (s.meas.sample.map (·.vmod)).getD 0
  let s := { s with closure := { s.closure with
    claimNumber := s.closure.claimNumber + 1
    claim := some { voltage := vmod, phase := .queued } } }
  (s.queueFrame (.claim ⟨vmod, s.closure.claimNumber, s.config.timingByte⟩)).changeConn .claiming .none

/-- The eligibility test in ISOLATED (R75): a pass begins a claim, and a failure on a dead bus beside an announced
closure, every other condition holding, sets BUS_SENSE_CONFLICT (R76). -/
def State.eligibilityTest (s : State) : State :=
  if s.claimConditions.all id then
    match s.voltageVerdict with
    | .holds => s.beginClaim
    | .deadBesideClosure => s.setEvent .busSenseConflict
    | .noSample => s
    | .outsideWindow => s
  else s

/-- What the eligibility test looks at: a change of it makes the test again (R35, R75). -/
def State.claimView (s : State) : List Bool × VoltageVerdict × Bool :=
  (s.claimConditions, s.voltageVerdict, anyAnnounces s.roster)

/-- The test is made again at the entry into ISOLATED and at a change of any condition, `before` being the state before
the change (R75). -/
def State.retest (s before : State) : State :=
  if s.claimView ≠ before.claimView then s.eligibilityTest else s

/-- The end of a command: the eligibility test if something it looks at has changed, and the offer on an idle line (log
entry 28). -/
def conclude (before s : State) : Answer := .next (s.retest before).offer

/-! ## Running (R151) -/

/-- An effect that the part has in RUN; elsewhere the event cannot occur and changes nothing (log entry 4). -/
def inRun (s : State) (effect : State → Answer) : Answer :=
  if s.power.phase = .run then effect s else .next s

/-! ## Leaving OFF, the comparator's arming and report, the end of a reset (R19, R20, R62, R92, R117 to R119, R174) -/

/-- The state in which the MBI leaves OFF (R19, R20). -/
def State.releasedBus (s : State) : BusState :=
  if s.mbi.permanentSilence then .silent else if s.committed then .active else .listen

/-- The MBI is released from OFF; it waits for idle (R2, R19). -/
def State.releaseMbi (s : State) : State :=
  { s with mbi := { s.mbi with bus := s.releasedBus, line := .unsynced } }

/-- The status timer starts at the own period if the configuration is committed (R92). -/
def State.startStatusTimer (s : State) : State :=
  if s.committed then
    { s with conn := { s.conn with statusTimer := some (statusPeriodMs (fieldNat s.config.statusPeriod)) } }
  else s

/-- The comparator is armed if the configuration is committed, its condition absent (R119). -/
def State.armShort (s : State) : State :=
  { s with det := { s.det with shortArmed := s.committed, short := false } }

/-- The scope that the comparator gives an onset (R118). -/
def State.shortScope (s : State) : Scope :=
  match s.meas.sample with
  | some x => if x.busLive s.config then .localOnly else .bus
  | none => .localOnly

/-- The measured value of a SHORT onset (R124). -/
def State.shortValue (s : State) : Half := (s.meas.sample.map (·.vbus)).getD 0

/-- The comparator finds the current, given by its magnitude, beyond the onset level with its condition absent, and
reports the onset at once (R117); a current already beyond the level at the arming is found so too (R119). -/
def State.judgeShort (current : Nat) (s : State) : State :=
  if s.det.shortArmed = true ∧ s.det.short = false ∧ shortOnsetLevel (fieldNat s.config.shortCode) < current then
    ({ s with det := { s.det with short := true } } : State).takeOnset .short s.shortValue s.shortScope
  else s

/-- The start-up that ends a pin reset or a service reset, from the release of the MBI to the self-check (R174, R175).
With the permanent-silence mark set the MBI is released to SILENT and the BUS_SILENT onset is taken at that moment. -/
def State.startUp (s : State) : State :=
  let s := s.releaseMbi
  let s := if s.mbi.bus = .silent then s.takeOnset .busSilent s.tecValue .localOnly else s
  let s := ({ s with meas := { s.meas with cycleTimer := some 0 } } : State).armShort.startHoldOff.startStatusTimer
  let s := { s with conn := { s.conn with restarted := decide (s.conn.state ≠ ConnState.lockout) } }
  s.handStatus.startSelfCheck

/-! ## The service port (R156 to R158, R177 to R180) -/

/-- A local wake source is latched and the wake pulse starts (R157, R158). -/
def Power.startPulse (source : WakeSource) (p : Power) : Power :=
  { p with phase := .wakePulse, latch := source, pulseTimer := some wakePulseMs }

/-- SSN falls in SLEEP or in the wake sequence before the main domain is up: the transaction meets WAKING (R156, R180),
and in SLEEP the fall is the wake source PORT (R157). -/
def State.selectAsleep (s : State) : State :=
  let s := { s with port := { s.port with line := .openWaking, response := none } }
  if s.power.phase = .sleep then { s with power := s.power.startPulse .port } else s

/-- SSN falls and a transaction begins, which has given no response yet (R177). In SLEEP the fall is the wake source PORT
(R157); in a reset the transaction comes to nothing (R180). -/
def State.select (s : State) : State :=
  match s.power.phase with
  | .run => { s with port := { s.port with line := .openRun, response := none } }
  | .sleep | .wakePulse | .powerUp => s.selectAsleep
  | .unpowered | .powerOnReset | .pinReset | .serviceReset =>
    { s with port := { s.port with line := .openReset, response := none } }

/-- A row of the port that meets SSN high stands for its transaction from the fall of SSN on, since a transaction begins
with that fall (R177; log entry 15). -/
def State.selected (s : State) : State := if s.port.line = .released then s.select else s

/-- The part returns a result and data for the transaction taken (R177). -/
def State.reply (r : Result) (data : List Byte) (s : State) : State :=
  { s with port := { s.port with response := some ⟨r, data⟩ } }

/-- What a transaction meets (R180). -/
inductive PortMeets where
  | nothing
  | waking
  | judged
deriving DecidableEq, Repr

/-- What a command taken now in the transaction under way meets (R178, R180): nothing where the transaction has been
answered already, since a new command needs a new fall of SSN; nothing in a reset or without supply, and in a transaction
that a reset has ended; WAKING in a transaction begun in SLEEP or in the wake sequence up to the main domain's power-up,
wherever the part stands by now (R156); judgement in RUN. -/
def State.portMeets (s : State) : PortMeets :=
  if s.port.response.isSome then .nothing
  else match s.power.phase, s.port.line with
    | .run, .openRun => .judged
    | .run, .openWaking | .sleep, .openWaking | .wakePulse, .openWaking | .powerUp, .openWaking => .waking
    | _, _ => .nothing

/-- A command that is answered whenever the part runs: a read, EVENT_CLEAR, EVENT_ENABLE, the unknown command (R180). -/
def portAnswered (s : State) (effect : State → Answer) : Answer :=
  match s.selected.portMeets with
  | .nothing => .next s.selected
  | .waking => .next (s.selected.reply .waking [])
  | .judged => effect s.selected

/-- A request that a running self-check refuses, with the data of its refusal (R162, R179, R180). -/
def portRequest (s : State) (refusal : List Byte) (effect : State → Answer) : Answer :=
  portAnswered s fun s =>
    if s.power.check = .running then .next (s.reply .refusedState refusal) else effect s

end Sys2Proof.Machine
end

