-- ==== Sys2Proof/Machine/Measure.lean ====
section
/-! DEFINITION. The commands of measurement and detection: SAMPLE_COMPLETE with the Charge Integrator and the six sampled detectors (R95 to R106, R112 to R116, R120 to R124), SHORT_ONSET and SHORT_CLEARANCE (R117, R118). -/

namespace Sys2Proof.Machine

/-! ## The Charge Integrator (R100 to R106) -/

/-- Steps of 40 µAs in 1 As (R100). -/
def stepsPerAs : Nat := 25000

/-- The value at which a charge counter saturates (R100). -/
def counterMax : Nat := 4294967295

/-- A charge counter after `n` steps (R101). -/
def chargeAdd (amount rem n : Nat) : Nat × Nat :=
  let total := amount + (rem + n) / stepsPerAs
  if counterMax ≤ total then (counterMax, 0) else (total, (rem + n) % stepsPerAs)

/-- The accumulator after `n` steps, clamped to 0 and to the capacity (R102). -/
def accumulatorMove (capacity amount rem : Nat) (n : Int) : Nat × Nat :=
  let total : Int := (amount * stepsPerAs + rem : Nat) + n
  if total < 0 then (0, 0)
  else if (capacity * stepsPerAs : Nat) < total then (capacity, 0)
  else (total.toNat / stepsPerAs, total.toNat % stepsPerAs)

/-- The counters after a sample of current `n` in 10 mA (R101). -/
def Charge.count (n : Int) (c : Charge) : Charge :=
  if 0 < n then
    { c with inAs := (chargeAdd c.inAs c.inRem n.toNat).1, inRem := (chargeAdd c.inAs c.inRem n.toNat).2 }
  else if n < 0 then
    { c with outAs := (chargeAdd c.outAs c.outRem n.natAbs).1, outRem := (chargeAdd c.outAs c.outRem n.natAbs).2 }
  else c

/-- The accumulator after a sample of current `n`, while the level is valid (R102). -/
def Charge.move (capacity : Nat) (n : Int) (c : Charge) : Charge :=
  if c.levelValid then
    { c with
      accAs := (accumulatorMove capacity c.accAs c.accRem n).1
      accRem := (accumulatorMove capacity c.accAs c.accRem n).2 }
  else c

/-- The length of the rest timer, in ms (R105). -/
def restMs : Nat := 30000

/-- The rest timer after a sample of current `n` (R105); before the commit it does not move. -/
def Charge.timeRest (committed : Bool) (restCurrent : Nat) (n : Int) (c : Charge) : Charge :=
  if committed then { c with rest := if n.natAbs < restCurrent then min restMs (c.rest + 4) else 0 } else c

/-- The accumulator that a recalibration gives, if the module is at rest beyond its empty or full voltage (R106). -/
def Charge.recalibration (cfg : ConfigRecord) (vmod : Half) (c : Charge) : Option Nat :=
  if c.rest = restMs then
    if vmod.toNat ≤ cfg.emptyCount then some 0
    else if cfg.fullCount ≤ vmod.toNat then some cfg.capacityAs
    else none
  else none

/-- A recalibration (R106): the accumulator is replaced, the level is valid and LEVEL_RECAL set; a flag formerly clear
queues a STATUS (R103). -/
def State.recalibrate (amount : Nat) (s : State) : State :=
  let fresh := !s.charge.levelValid
  let s := { s with charge := { s.charge with accAs := amount, accRem := 0, levelValid := true, rest := 0 } }
  let s := s.setEvent .levelRecal
  if fresh then s.handStatus else s

/-- The integration of a sample (R101, R102, R105, R106), as one change. -/
def State.integrate (x : Sample) (s : State) : State :=
  let n := x.current.toInt
  let moved := (s.charge.count n).move s.config.capacityAs n
  let s := { s with charge := moved.timeRest s.committed (fieldNat s.config.restCurrent) n }
  if s.committed then
    match s.charge.recalibration s.config x.vmod with
    | some amount => s.recalibrate amount
    | none => s
  else s

/-! ## The sampled detectors (R112 to R116, R120 to R124) -/

/-- The order in which the reports of one sample reach the Fault Unit (R114). -/
def Source.sampled : List Source := [.tempTrip, .busOv, .ocDsg, .ocChg, .modOv, .modUv]

/-- The condition of a source as the Protection Detectors hold it; DUP_ID, BUS_SILENT and RX_DEGRADED are the MBI's. -/
def Detectors.condition (d : Detectors) : Source → Bool
  | .short => d.short
  | .tempTrip => d.tempTrip
  | .busOv => d.busOv
  | .ocDsg => d.ocDsg
  | .ocChg => d.ocChg
  | .modOv => d.modOv
  | .modUv => d.modUv
  | .dupId | .busSilent | .rxDegraded => false

/-- An over-current run and condition after a sample (R115). -/
def overCurrentStep (runLength run : Nat) (present above : Bool) : Nat × Bool :=
  if above then if present then (run, true) else (run + 1, decide (runLength ≤ run + 1)) else (0, false)

/-- A condition with hysteresis after a sample: an absent one has its onset at `onset`, a present one clears at
`clearance`. -/
def bandStep (present onset clearance : Bool) : Bool := if present then !clearance else onset

/-- The detectors after a sample (R115, R120 to R123). -/
def Detectors.judge (c : ConfigRecord) (x : Sample) (d : Detectors) : Detectors :=
  let dsg := overCurrentStep c.runLength d.runDsg d.ocDsg (decide (x.current.toInt < -(c.ocDsgCount : Int)))
  let chg := overCurrentStep c.runLength d.runChg d.ocChg (decide ((c.ocChgCount : Int) < x.current.toInt))
  { d with
    runDsg := dsg.1
    runChg := chg.1
    ocDsg := dsg.2
    ocChg := chg.2
    tempTrip := bandStep d.tempTrip (decide (c.tempTripC ≤ x.temp.toInt)) (decide (x.temp.toInt ≤ c.tempReleaseC))
    busOv := bandStep d.busOv (decide (c.busOvCount < x.vbus.toNat)) (decide (x.vbus.toNat ≤ c.busOvReleaseCount))
    modOv := bandStep d.modOv (decide (c.ovTripCount < x.vmod.toNat)) (decide (x.vmod.toNat < c.ovReleaseCount))
    modUv := bandStep d.modUv (decide (x.vmod.toNat < c.uvTripCount)) (decide (c.uvReleaseCount < x.vmod.toNat)) }

/-- The measured value of a sampled source's onset (R124). -/
def Sample.measured (x : Sample) : Source → Half
  | .tempTrip => x.temp.signExtend 16
  | .busOv => x.vbus
  | .ocDsg | .ocChg => x.current
  | .modOv | .modUv => x.vmod
  | .short | .dupId | .busSilent | .rxDegraded => 0

/-- The sources whose condition a sample has cleared, in the order of R114. -/
def Detectors.cleared (old new : Detectors) : List Source :=
  Source.sampled.filter fun src => old.condition src && !new.condition src

/-- The sources whose condition a sample has brought, in the order of R114. -/
def Detectors.arisen (old new : Detectors) : List Source :=
  Source.sampled.filter fun src => !old.condition src && new.condition src

/-- Clearances of one sample are taken one after the other (R114). -/
def State.takeClearances (l : List Source) (s : State) : State :=
  match l with
  | [] => s
  | src :: rest => (s.takeClearance src).takeClearances rest

/-- Onsets of one sample are taken one after the other, each in whatever state the one before has left (R114, R124). -/
def State.takeOnsets (x : Sample) (l : List Source) (s : State) : State :=
  match l with
  | [] => s
  | src :: rest => (s.takeOnset src (x.measured src) .localOnly).takeOnsets x rest

/-- The detectors judge a sample once the configuration is committed, and hand over every clearance and then every onset
(R113, R114). -/
def State.judgeSample (x : Sample) (s : State) : State :=
  if s.committed then
    let old := s.det
    let new := old.judge s.config x
    (({ s with det := new } : State).takeClearances (old.cleared new)).takeOnsets x (old.arisen new)
  else s

/-! ## The commands -/

/-- The number of the sample that completes now (R96). -/
def Meas.nextCycle (m : Meas) : BitVec 32 :=
  match m.sample with
  | some x => x.cycle + 1
  | none => 1

/-- The sample record is replaced and the next 4 ms start (R95, R97). -/
def State.storeSample (x : Sample) (s : State) : State :=
  { s with meas := { sample := some x, cycleTimer := some 0 } }

/-- SAMPLE_COMPLETE (R95 to R97): the integration first, then the reports and the eligibility test in either order. -/
def execSampleComplete (inputs : SampleInputs) (race : Race) (s : State) : Answer :=
  inRun s fun s =>
    if s.meas.cycleTimer.isSome then
      let x := Sample.ofInputs inputs s.meas.nextCycle
      let taken := (s.storeSample x).integrate x
      match race with
      | .faultFirst => conclude s (taken.judgeSample x).eligibilityTest
      | .controllerFirst => conclude s (taken.eligibilityTest.judgeSample x)
    else .next s

/-- SHORT_ONSET (R117, R118): an armed comparator sees the current exceed its level. -/
def execShortOnset (current : Nat) (s : State) : Answer :=
  inRun s fun s => conclude s (s.judgeShort current)

/-- SHORT_CLEARANCE (R117): the current has fallen below half the level. -/
def execShortClearance (current : Nat) (s : State) : Answer :=
  inRun s fun s =>
    if s.det.short = true ∧ current < shortClearanceLevel (fieldNat s.config.shortCode) then
      conclude s (({ s with det := { s.det with short := false } } : State).takeClearance .short)
    else .next s

end Sys2Proof.Machine
end

