-- ==== Sys2Proof/Machine/PortReads.lean ====
section
/-! DEFINITION. The reads of the service port and the layout of their responses (R36, R69, R99, R107, R145, R181 to R183, R194, R195). A read changes nothing but the response. -/

namespace Sys2Proof.Machine

/-! ## Bytes of a response (R194, R195) -/

/-- The two bytes of a field, most significant first (R194). -/
def bytes16 (h : Half) : List Byte := [hiByte h, loByte h]

/-- The two bytes of a count. -/
def natBytes16 (n : Nat) : List Byte := bytes16 (BitVec.ofNat 16 n)

/-- The four bytes of a 32-bit field, most significant first. R191 and R194 give that order for two-byte fields only; for
four-byte fields it is the model's DESIGN CHOICE (log entry 40). -/
def bytes32 (w : BitVec 32) : List Byte :=
  [w.extractLsb' 24 8, w.extractLsb' 16 8, w.extractLsb' 8 8, w.extractLsb' 0 8]

/-- The four bytes of a count, in the order of `bytes32` (log entry 40). -/
def natBytes32 (n : Nat) : List Byte := bytes32 (BitVec.ofNat 32 n)

/-- A byte that holds a station id. -/
def idByte (id : StationId) : Byte := id.setWidth 8

/-! ## The responses -/

/-- IDENT: vendor code 87, part code 16, revision 3, own id (R183, R194). -/
def State.identBytes (s : State) : List Byte := [87, 16, 3, idByte s.ownId]

/-- The bus-interface state that STATUS_READ shows: in the wake sequence, the one the MBI will leave OFF for (R182). -/
def State.shownBus (s : State) : BusState := if s.mbi.bus = .off then s.releasedBus else s.mbi.bus

/-- STATUS_READ (R182, R195). -/
def State.statusBytes (s : State) : List Byte :=
  [ s.conn.state.code ++ s.conn.path.code ++ BitVec.ofBool s.conn.joined ++ BitVec.ofBool s.conn.sleepPending
      ++ BitVec.ofBool s.conn.restarted,
    BitVec.ofBool s.committed ++ s.shownBus.code ++ BitVec.ofBool s.mbi.rejectMuted
      ++ BitVec.ofBool s.mbi.permanentSilence ++ BitVec.ofBool s.switches.chg ++ BitVec.ofBool s.switches.dsg
      ++ BitVec.ofBool s.power.checkFlag,
    BitVec.ofNat 8 s.mbi.tec,
    BitVec.ofNat 8 s.mbi.recCount,
    s.power.check.code ++ BitVec.ofBool s.power.checkResult.converter ++ BitVec.ofBool s.power.checkResult.gates
      ++ BitVec.ofBool s.power.checkResult.store ++ s.power.latch.code
      ++ BitVec.ofBool s.fault.register.heldPresent,
    flagBit s.charge.levelValid 7,
    s.level ]
  ++ bytes16 (s.port.events.setWidth 16) ++ bytes16 (s.port.enables.setWidth 16)

/-- SAMPLE_READ (R99, R195). -/
def State.sampleBytes (s : State) : List Byte :=
  match s.meas.sample with
  | some x => [1] ++ bytes16 x.vmod ++ bytes16 x.vbus ++ bytes16 x.current ++ [x.temp] ++ bytes32 x.cycle
  | none => List.replicate 12 0

/-- The fields of an entry's status part in ROSTER_READ (R195); all 0 while it is absent. -/
def RosterEntry.partBytes (e : RosterEntry) : List Byte :=
  match e.status with
  | some p =>
    bytes16 p.voltage ++ bytes16 p.current
      ++ [p.level.getD 0, p.temperature, (0#3 ++ p.path.code ++ p.period ++ 0#1 : BitVec 8), p.flags]
  | none => List.replicate 8 0

/-- An entry in ROSTER_READ (R36, R195). -/
def RosterEntry.bytes (e : RosterEntry) : List Byte :=
  [ e.state.code,
    BitVec.ofBool e.announced.isSome ++ BitVec.ofBool e.lastClaim.isSome ++ BitVec.ofBool e.status.isSome
      ++ BitVec.ofBool (e.status.bind (·.level)).isSome ++ BitVec.ofBool e.trippedLocal ++ 0#3,
    ((e.announced.map ConnState.code).getD 0).setWidth 8,
    e.lastClaim.getD 0 ]
  ++ natBytes16 e.age ++ e.partBytes

/-- ROSTER_READ (R36, R195): an EMPTY entry, and the slot of the own id, is fourteen bytes of 0. -/
def State.rosterBytes (id : StationId) (s : State) : List Byte :=
  if id = s.ownId then List.replicate 14 0
  else match rosterGet id s.roster with
    | some e => e.bytes
    | none => List.replicate 14 0

/-- A source's group in FAULT_READ (R195). -/
def SourceRecord.bytes (x : SourceRecord) : List Byte :=
  [(x.state.code ++ BitVec.ofBool x.present ++ BitVec.ofBool x.value.isSome ++ 0#4 : BitVec 8)]
    ++ bytes16 (x.value.getD 0)

/-- FAULT_READ (R145, R195). -/
def State.faultBytes (s : State) : List Byte :=
  (Source.all.flatMap fun src => (s.fault.register.get src).bytes)
    ++ bytes16 (s.fault.portHolds.setWidth 16) ++ [flagBit s.fault.closingHold 0]
    ++ natBytes16 (s.fault.lockout.getD 0)

/-- A slot of HISTORY_READ (R195). -/
def TripRecord.bytes (r : TripRecord) : List Byte :=
  bytes16 r.number
    ++ [BitVec.ofNat 8 r.code.code, BitVec.ofNat 8 r.source.code,
        flagBit (decide (r.scope = .bus)) 7 ||| r.connState.code.setWidth 8]
    ++ bytes16 r.value ++ natBytes32 r.accumulator

/-- HISTORY_READ (R145, R195): the counter, the count, and four slots, oldest record first. -/
def State.historyBytes (s : State) : List Byte :=
  natBytes16 s.fault.tripCounter ++ [BitVec.ofNat 8 s.fault.history.length]
    ++ ((s.fault.history.flatMap TripRecord.bytes) ++ List.replicate 44 0).take 44

/-- COUNTERS_READ (R107, R195). -/
def State.counterBytes (s : State) : List Byte :=
  natBytes32 s.charge.inAs ++ natBytes32 s.charge.outAs ++ natBytes32 s.charge.accAs
    ++ [s.level, flagBit s.charge.levelValid 0 ||| flagBit s.meas.sample.isSome 1]
    ++ natBytes16 s.charge.rest ++ bytes32 ((s.meas.sample.map (·.cycle)).getD 0)

/-- The awaited ids of a claim in progress and the time left on its timer; none and 0 while QUEUED (R69). -/
def Claim.awaited (c : Claim) : List StationId × Nat :=
  match c.phase with
  | .queued => ([], 0)
  | .awaiting ids timer => (ids, timer)

/-- Whether a claim is in phase AWAITING. -/
def Claim.isAwaiting (c : Claim) : Bool :=
  match c.phase with
  | .queued => false
  | .awaiting _ _ => true

/-- The objecting id and the reason of an outcome OBJECTED, 0 otherwise (R195). -/
def ClaimOutcome.objection : ClaimOutcome → List Byte
  | .objected peer reason => [idByte peer, reason.code]
  | .none | .succeeded | .noAnswer | .window | .yielded | .dropped | .silent | .leave | .tripped | .busTrip => [0, 0]

/-- The closure record in CLOSURE_READ: holder, number and expiry, 0 while absent (R69, R195). -/
def Closure.recordBytes (c : Closure) : List Byte :=
  match c.record with
  | some r => [idByte r.holder, r.number] ++ natBytes16 (r.expiry.getD 0)
  | none => [0, 0, 0, 0]

/-- CLOSURE_READ (R69, R195). -/
def State.closureBytes (s : State) : List Byte :=
  let c := s.closure
  let waiting := (c.claim.map Claim.awaited).getD ([], 0)
  [flagBit c.record.isSome 7 ||| flagBit s.ownRecord 6 ||| flagBit c.claim.isSome 5
      ||| flagBit ((c.claim.map Claim.isAwaiting).getD false) 4]
    ++ c.recordBytes ++ [c.claimNumber] ++ bytes16 ((c.claim.map (·.voltage)).getD 0)
    ++ [BitVec.ofNat 8 waiting.1.length] ++ (waiting.1.map idByte ++ List.replicate 15 0).take 15
    ++ [BitVec.ofNat 8 waiting.2, c.lastOutcome.code] ++ c.lastOutcome.objection
    ++ natBytes16 (c.holdOff.getD 0) ++ natBytes16 (c.quiet.getD 0)

/-! ## The commands -/

/-- IDENT (R183). -/
def execIdent (s : State) : Answer := portAnswered s fun s => .next (s.reply .done s.identBytes)

/-- STATUS_READ (R182). -/
def execStatusRead (s : State) : Answer := portAnswered s fun s => .next (s.reply .done s.statusBytes)

/-- SAMPLE_READ (R99). -/
def execSampleRead (s : State) : Answer := portAnswered s fun s => .next (s.reply .done s.sampleBytes)

/-- ROSTER_READ (R36, R181): an argument of 16 or more is refused. -/
def execRosterRead (id : Byte) (s : State) : Answer :=
  portAnswered s fun s =>
    .next (if id.toNat < 16 then s.reply .done (s.rosterBytes (id.setWidth 4)) else s.reply .refusedValue [])

/-- FAULT_READ (R145). -/
def execFaultRead (s : State) : Answer := portAnswered s fun s => .next (s.reply .done s.faultBytes)

/-- HISTORY_READ (R145). -/
def execHistoryRead (s : State) : Answer := portAnswered s fun s => .next (s.reply .done s.historyBytes)

/-- COUNTERS_READ (R107). -/
def execCountersRead (s : State) : Answer := portAnswered s fun s => .next (s.reply .done s.counterBytes)

/-- CLOSURE_READ (R69). -/
def execClosureRead (s : State) : Answer := portAnswered s fun s => .next (s.reply .done s.closureBytes)

end Sys2Proof.Machine
end

