-- ==== Sys2Proof/Machine/PortRequests.lean ====
section
/-! DEFINITION. The requests of the service port: configuration and commit (R166 to R170), JOIN and LEAVE (R72, R83 to R85), SLEEP (R152), ACK_TRIP, SET_HOLDS and CLEAR_FAULTS (R133, R146, R147), CHECK (R162), EVENT_CLEAR and EVENT_ENABLE (R186, R187), SERVICE_RESET (R175), the unknown command (R178). -/

namespace Sys2Proof.Machine

/-! ## The configuration -/

/-- The record with a field set, by its field number (R166). -/
def ConfigRecord.setField (field : Nat) (v : Option Half) (c : ConfigRecord) : ConfigRecord :=
  match field with
  | 1 => { c with capacity := v }
  | 2 => { c with window := v }
  | 3 => { c with deadBus := v }
  | 4 => { c with busOvLimit := v }
  | 5 => { c with ovTrip := v }
  | 6 => { c with ovRelease := v }
  | 7 => { c with uvTrip := v }
  | 8 => { c with uvRelease := v }
  | 9 => { c with ocDsgLimit := v }
  | 10 => { c with ocChgLimit := v }
  | 11 => { c with ocDetect := v }
  | 12 => { c with shortCode := v }
  | 13 => { c with tempTrip := v }
  | 14 => { c with tempRelease := v }
  | 15 => { c with claimTimeout := v }
  | 16 => { c with settleCode := v }
  | 17 => { c with statusPeriod := v }
  | 18 => { c with emptyVoltage := v }
  | 19 => { c with fullVoltage := v }
  | 20 => { c with restCurrent := v }
  | 21 => { c with wakeCurrent := v }
  | 22 => { c with initialLevel := v }
  | _ => c

/-- The fields 1 to 21 in the order of their numbers (R166). -/
def ConfigRecord.required (c : ConfigRecord) : List (Option Half) :=
  [c.capacity, c.window, c.deadBus, c.busOvLimit, c.ovTrip, c.ovRelease, c.uvTrip, c.uvRelease, c.ocDsgLimit,
    c.ocChgLimit, c.ocDetect, c.shortCode, c.tempTrip, c.tempRelease, c.claimTimeout, c.settleCode, c.statusPeriod,
    c.emptyVoltage, c.fullVoltage, c.restCurrent, c.wakeCurrent]

/-- Whether a count lies in a range. -/
def inRange (lo hi : Nat) (v : Half) : Bool := decide (lo ≤ v.toNat) && decide (v.toNat ≤ hi)

/-- Whether a value lies in a field's range and is a whole number of its step, in the field's count (R166, R194). -/
def fieldAccepts (field : Nat) (v : Half) : Bool :=
  match field with
  | 1 => inRange 1 65535 v
  | 2 => inRange 1 500 v
  | 3 => inRange 50 2000 v
  | 4 => inRange 500 13000 v
  | 5 | 6 | 7 | 8 | 18 | 19 => inRange 100 13000 v
  | 9 | 10 => inRange 1 300 v
  | 11 => inRange 8 1020 v && decide (v.toNat % 4 = 0)
  | 12 | 15 | 17 => inRange 0 3 v
  | 13 | 14 => decide (-60 ≤ v.toInt) && decide (v.toInt ≤ 150)
  | 16 => inRange 0 15 v
  | 20 => inRange 10 1000 v
  | 21 => inRange 10 500 v
  | 22 => inRange 0 200 v || decide (v = 255)
  | _ => false

/-- CONFIG_WRITE (R167): 255 leaves the initial level unset. -/
def execConfigWrite (field : Byte) (value : Half) (s : State) : Answer :=
  portRequest s [] fun s =>
    if s.committed then .next (s.reply .refusedState [])
    else if fieldAccepts field.toNat value then
      let v := if field = 22 ∧ value = 255 then none else some value
      .next (({ s with config := s.config.setField field.toNat v } : State).reply .done [])
    else .next (s.reply .refusedValue [])

/-- The number of the lowest-numbered unset field of a list that starts at field `n`. -/
def firstUnset (n : Nat) : List (Option Half) → Option Nat
  | [] => none
  | none :: _ => some n
  | some _ :: fs => firstUnset (n + 1) fs

/-- The first test of the commit that fails: the result, the test's number and the field it names (R169). -/
def ConfigRecord.commitFailure (c : ConfigRecord) : Option (Result × Nat × Nat) :=
  match firstUnset 1 c.required with
  | some n => some (.refusedCondition, 1, n)
  | none =>
    if ¬ c.ovReleaseCount < c.ovTripCount then some (.refusedValue, 2, 6)
    else if ¬ c.uvTripCount < c.uvReleaseCount then some (.refusedValue, 3, 8)
    else if ¬ c.uvTripCount < c.ovTripCount then some (.refusedValue, 4, 7)
    else if ¬ c.emptyCount < c.fullCount then some (.refusedValue, 5, 18)
    else if ¬ c.tempReleaseC ≤ c.tempTripC - 5 then some (.refusedValue, 6, 14)
    else if ¬ c.deadBusCount < c.busOvCount then some (.refusedValue, 7, 3)
    else if ¬ fieldNat c.settleCode ≤ 5 then some (.refusedValue, 8, 16)
    else none

/-- The initial level is applied at the commit if it has been written (R104). -/
def State.applyInitialLevel (s : State) : State :=
  match s.config.initialLevel with
  | some v =>
    { s with charge := { s.charge with
      accAs := v.toNat * s.config.capacityAs / 200, accRem := 0, levelValid := true } }
  | none => s

/-- At the commit an MBI source whose condition is present has its onset taken (R129). -/
def State.takeStanding (src : Source) (value : Half) (s : State) : State :=
  if (s.fault.register.get src).present then s.takeOnset src value .localOnly else s

/-- The self-check that the commit starts, marked as such (R162, R164, R170). -/
def State.startCommitCheck (s : State) : State :=
  let s := s.startSelfCheck
  { s with power := { s.power with commitCheck := true } }

/-- An accepted commit in its seven steps, each later step seeing the earlier ones in place (R170; log entry 19). -/
def State.commit (current : Nat) (s : State) : State :=
  let s := { s with
    committed := true
    mbi := { s.mbi with bus := if s.mbi.bus = BusState.listen then BusState.active else s.mbi.bus } }
  let s := s.applyInitialLevel.armShort
  let s := (s.takeStanding .busSilent s.tecValue).takeStanding .rxDegraded s.recValue
  (s.judgeShort current).startStatusTimer.handStatus.startCommitCheck

/-- CONFIG_COMMIT (R169, R170). A refusal carries a test number and a field number, both 0 where no test was made (log
entry 17). -/
def execConfigCommit (current : Nat) (s : State) : Answer :=
  portRequest s [0, 0] fun s =>
    if s.committed then .next (s.reply .refusedState [0, 0])
    else match s.config.commitFailure with
      | some (result, test, field) => .next (s.reply result [BitVec.ofNat 8 test, BitVec.ofNat 8 field])
      | none => conclude s ((s.commit current).reply .done [])

/-! ## Joining, leaving, sleeping -/

/-- JOIN (R72): taken in DETACHED once committed; a pending sleep is cancelled (R71, R154). -/
def execJoin (s : State) : Answer :=
  portRequest s [] fun s =>
    if s.committed = true ∧ s.conn.state = .detached then
      let joined := { s with conn := { s.conn with joined := true } }
      conclude s ((joined.cancelSleep.changeConn .isolated .none).reply .done [])
    else .next (s.reply .refusedState [])

/-- LEAVE in CLAIMING (R58): a CLAIM not yet transmitted is withdrawn, a claim in AWAITING is abandoned. -/
def State.leaveClaim (s : State) : State :=
  match s.closure.claim with
  | some c =>
    match c.phase with
    | .queued => (s.withdrawClaim .leave).endClaim .leave
    | .awaiting _ _ => (s.queueAbandon .leave).endClaim .leave
  | none => s

/-- The release interval starts and the state becomes RELEASING with the switches open (R84 to R86). -/
def State.enterReleasing (s : State) : State :=
  (({ s with conn := { s.conn with release := some releaseMs } } : State).openSwitches).changeConn .releasing .none

/-- LEAVE (R58, R83 to R85): taken in ISOLATED, CLAIMING, CLOSING and CONNECTED; a pending sleep is cancelled (R71). -/
def execLeave (s : State) : Answer :=
  portRequest s [] fun s =>
    let left := ({ s with conn := { s.conn with joined := false } } : State).cancelSleep
    match s.conn.state with
    | .isolated => conclude s ((left.changeConn .detached .none).reply .done [])
    | .claiming => conclude s ((left.leaveClaim.changeConn .detached .none).reply .done [])
    | .closing => conclude s (((left.queueAbandon .leave).enterReleasing.liftClosingHold).reply .done [])
    | .connected => conclude s (((left.queueFrame .release).enterReleasing).reply .done [])
    | .detached | .releasing | .tripped | .lockout => .next (s.reply .refusedState [])

/-- SLEEP (R152): taken in DETACHED and ISOLATED with no source ACTIVE; the entry follows when the list is empty
(R153, log entry 6). -/
def execSleep (s : State) : Answer :=
  portRequest s [] fun s =>
    if s.conn.state = .detached ∨ s.conn.state = .isolated then
      if s.fault.register.anyActive then .next (s.reply .refusedCondition [])
      else if s.conn.sleepPending then .next (s.reply .done [])
      else
        let pending := ({ s with conn := { s.conn with sleepPending := true } } : State).handStatus
        conclude s (pending.reply .done [])
    else .next (s.reply .refusedState [])

/-! ## Trips, holds and faults -/

/-- Whether a condition outlasts the trip, so that ACK_TRIP is refused (R146). -/
def State.tripStands (s : State) : Bool :=
  (Source.all.any fun src => src.isTrip && s.isActive src && (s.fault.register.get src).present)
    || (s.isActive .modOv && s.isActive .modUv)

/-- An ACTIVE trip source becomes CLEAR at the acknowledgement (R146). -/
def State.acknowledge (src : Source) (s : State) : State :=
  if src.isTrip = true ∧ s.isActive src = true then s.setSource src .quiet else s

/-- The listed sources are acknowledged (R146). -/
def State.acknowledgeAll (l : List Source) (s : State) : State :=
  match l with
  | [] => s
  | src :: rest => (s.acknowledge src).acknowledgeAll rest

/-- ACK_TRIP (R146). -/
def execAckTrip (s : State) : Answer :=
  portRequest s [] fun s =>
    if s.conn.state = .tripped then
      if s.tripStands then .next (s.reply .refusedCondition [])
      else
        let cleared := s.acknowledgeAll Source.all
        let back :=
          if s.conn.joined then cleared.startHoldOff.changeConn .isolated .none
          else cleared.changeConn .detached .none
        conclude s (back.reply .done [])
    else .next (s.reply .refusedState [])

/-- Postponed action of the listed sources, one after the other, each in the state the one before has left (R132). -/
def State.postponedAll (l : List Source) (s : State) : State :=
  match l with
  | [] => s
  | src :: rest => (s.postponed src).postponedAll rest

/-- SET_HOLDS (R133): a bit of a class A source refuses the mask; a hold removed releases postponed action, in the order
of the fault codes (R132; log entry 20). -/
def execSetHolds (mask : Half) (s : State) : Answer :=
  portRequest s [] fun s =>
    if s.committed = false then .next (s.reply .refusedState [])
    else if mask &&& 0x000F ≠ 0 then .next (s.reply .refusedValue [])
    else
      let held := { s with fault := { s.fault with portHolds := mask.setWidth 10 } }
      conclude s ((held.postponedAll Source.all).reply .done [])

/-- A source named in the mask becomes CLEAR if it is LAPSED (R147). -/
def State.clearLapsed (mask : Half) (src : Source) (s : State) : State :=
  if mask.getLsbD (src.code - 1) = true ∧ (s.fault.register.get src).state = .lapsed then
    s.setSource src { s.fault.register.get src with state := .clear }
  else s

/-- The listed sources are cleared where the mask names them and they are LAPSED (R147). -/
def State.clearLapsedAll (mask : Half) (l : List Source) (s : State) : State :=
  match l with
  | [] => s
  | src :: rest => (s.clearLapsed mask src).clearLapsedAll mask rest

/-- CLEAR_FAULTS (R147). -/
def execClearFaults (mask : Half) (s : State) : Answer :=
  portRequest s [] fun s =>
    if s.committed = false then .next (s.reply .refusedState [])
    else conclude s ((s.clearLapsedAll mask Source.all).reply .done [])

/-! ## Self-check, events, reset, unknown command -/

/-- CHECK (R162): taken in DETACHED, ISOLATED, TRIPPED and LOCKOUT with no sleep pending. -/
def execCheck (s : State) : Answer :=
  portRequest s [] fun s =>
    if s.conn.sleepPending then .next (s.reply .refusedState [])
    else match s.conn.state with
      | .detached | .isolated | .tripped | .lockout => conclude s (s.startSelfCheck.reply .done [])
      | .claiming | .closing | .connected | .releasing => .next (s.reply .refusedState [])

/-- EVENT_CLEAR (R186): the copy is returned and the named events cleared. -/
def execEventClear (mask : Half) (s : State) : Answer :=
  portAnswered s fun s =>
    let events := s.port.events
    let cleared := { s with port := { s.port with events := events &&& ~~~(mask.setWidth 14) } }
    .next (cleared.reply .done [hiByte (events.setWidth 16), loByte (events.setWidth 16)])

/-- EVENT_ENABLE (R187). -/
def execEventEnable (mask : Half) (s : State) : Answer :=
  portAnswered s fun s =>
    .next (({ s with port := { s.port with enables := mask.setWidth 14 } } : State).reply .done [])

/-- SERVICE_RESET (R175): the reset starts at the release of SSN. -/
def execServiceReset (s : State) : Answer :=
  portRequest s [] fun s =>
    .next (({ s with port := { s.port with resetPending := true } } : State).reply .done [])

/-- The unknown command (R178; log entry 16). A code that R194 assigns is none. -/
def execUnknownCommand (code : Byte) (s : State) : Answer :=
  if portCodeAssigned code then .next s else portAnswered s fun s => .next (s.reply .refusedValue [])

end Sys2Proof.Machine
end

