-- ==== Sys2Proof/WellFormed.lean ====
section
/-! DEFINITION. The well-formedness of a command: what its operands must satisfy for the command to name an event of the PM16. -/

namespace Sys2Proof

/-- A frame read whole holds as many payload bytes as its length field states (R2, R6). -/
def RawFrame.wf (f : RawFrame) : Bool := decide (f.payload.length = f.length.toNat)

/-- The well-formedness of a command. A frame command carries a frame that the receiver judges as the row says (R6, R7,
R8); an unknown command carries a code that R194 does not assign. Every other operand is defined over its whole type. -/
def Instr.wf : Instr → Bool
  | .frameFaulty f => f.wf && f.faulty
  | .frameRejected f => f.wf && !f.faulty
  | .unknownKindFrame f => f.wf && !f.faulty && (FrameKind.ofCode f.kindCode).isNone
  | .unknownCommand c => !portCodeAssigned c
  | .lineIdle _ | .collisionError | .txSuccess | .txAttemptFailed _ | .statusReceived _ _ | .tripReceived _ _
  | .claimReceived _ _ | .objectReceived _ _ | .assentReceived _ _ | .closedReceived _ _ | .abandonReceived _ _
  | .releaseReceived _ | .silentExitCount | .silenceTimerExpiry | .rosterStaleLimit _ | .rosterEmptyLimit _
  | .recordExpiry | .claimTimerExpiry | .holdOffExpiry | .quietPeriodExpiry | .settleEnd | .releaseTimerExpiry
  | .statusTimerExpiry | .sampleComplete _ _ | .shortOnset _ | .shortClearance _ | .lockoutWindowExpiry
  | .selfCheckEnd _ | .sleepEntry | .wakeLine | .currentWake _ | .portWake | .wakePulseEnd | .mainDomainReady _
  | .vkaLoss | .powerOnResetEnd _ | .resetnLow _ _ | .vddLow | .pinResetEnd _ _ | .serviceResetEnd _ | .ssnRelease
  | .ident | .statusRead | .sampleRead | .rosterRead _ | .faultRead | .historyRead | .countersRead | .closureRead
  | .configWrite _ _ | .configCommit _ | .join | .leave | .sleep | .ackTrip | .setHolds _ | .clearFaults _ | .check
  | .eventClear _ | .eventEnable _ | .serviceReset | .transactionBegin => true

end Sys2Proof
end

