-- ==== Sys2Proof/Machine/Receive.lean ====
section
/-! DEFINITION. The commands of received frames, and the end of SILENT (R6 to R9, R16 to R18, R25 to R30, R39 to R45, R49, R52, R53, R56, R64 to R66, R148, R149). -/

namespace Sys2Proof.Machine

/-! ## Hearing and judging a frame -/

/-- The station receives frames: RUN, MBI not OFF, an idle read since OFF was left (R2). -/
def State.hears (s : State) : Bool :=
  decide (s.power.phase = .run) && decide (s.mbi.bus ≠ .off) && decide (s.mbi.line ≠ .unsynced)

/-- The station has received a frame to its end: a frame of its own that it was sending has lost arbitration (R4; log
entry 7), and the reject slot is its own to drive only if it finds the frame faulty. -/
def State.receiving (s : State) : State :=
  let s := s.startMarkRead
  { s with mbi := { s.mbi.loseArbitration with line := .busy, slotDriven := false } }

/-- A frame read to its end takes its effect where the station receives it (R2). -/
def heard (s : State) (effect : State → State) : Answer :=
  if s.hears then conclude s (effect s.receiving) else .next s

/-- A frame found good in SILENT with its slot recessive counts as a good frame unless it carries the own id (R16; log
entry 27). -/
def State.countGood (src : StationId) (s : State) : State :=
  if s.mbi.bus = .silent ∧ s.mbi.permanentSilence = false then
    { s with mbi := { s.mbi with goodCount := if src = s.ownId then 0 else min 16 (s.mbi.goodCount + 1) } }
  else s

/-- A frame found faulty (R6, R16, R17): the slot is driven in ACTIVE unless reject-muted, REC rises, and at 128 the
station becomes reject-muted. -/
def State.findFaulty (s : State) : State :=
  let s := { s with mbi := { s.mbi with
    slotDriven := decide (s.mbi.bus = .active) && !s.mbi.rejectMuted
    recCount := min 255 (s.mbi.recCount + 1)
    goodCount := 0 } }
  if 128 ≤ s.mbi.recCount ∧ s.mbi.rejectMuted = false then
    ({ s with mbi := { s.mbi with rejectMuted := true } } : State).takeOnset .rxDegraded s.recValue .localOnly
  else s

/-- A frame accepted, refresh-only or not, lowers REC; below 96 the reject-muted flag clears (R8, R17). -/
def State.acceptFrame (src : StationId) (s : State) : State :=
  let s := { s with mbi := { s.mbi with recCount := s.mbi.recCount - 1 } }
  let s :=
    if s.mbi.rejectMuted = true ∧ s.mbi.recCount < 96 then
      ({ s with mbi := { s.mbi with rejectMuted := false } } : State).takeClearance .rxDegraded
    else s
  s.countGood src

/-- A frame of known kind that the station found good, its slot recessive (R8): the own id reveals a duplicate (R18), a
field outside its defined values leaves the refresh alone (R9), and otherwise the frame has the effect of its kind. -/
def accepted (src : StationId) (f : Frame) (effect : State → State) (s : State) : Answer :=
  heard s fun s =>
    let s := s.acceptFrame src
    if src = s.ownId then s.duplicateId
    else if f.refreshOnly then s.rosterFrame src id
    else effect s

/-! ## Frames that are not accepted -/

/-- FRAME_FAULTY (R6, R17). -/
def execFrameFaulty (frame : RawFrame) (s : State) : Answer :=
  if (Instr.frameFaulty frame).wf then heard s State.findFaulty else .next s

/-- FRAME_REJECTED (R7, R16): found good, but its slot read dominant. -/
def execFrameRejected (frame : RawFrame) (s : State) : Answer :=
  if (Instr.frameRejected frame).wf then
    heard s fun s => { s with mbi := { s.mbi with goodCount := 0 } }
  else .next s

/-- UNKNOWN_KIND_FRAME (R8, R16): ignored, but a good frame of SILENT. -/
def execUnknownKindFrame (frame : RawFrame) (s : State) : Answer :=
  if (Instr.unknownKindFrame frame).wf then heard s (State.countGood frame.source) else .next s

/-! ## STATUS -/

/-- The status part that a STATUS carries (R24, R26). -/
def StatusPart.ofPayload (p : StatusPayload) : StatusPart where
  path := p.path
  voltage := p.voltage
  current := p.current
  level := if p.level = 255 then none else some p.level
  temperature := p.temperature
  flags := p.flagsByte &&& 0xF8
  period := p.period

/-- The update of an entry by a STATUS (R26, R27). -/
def RosterEntry.takeStatus (p : StatusPayload) (e : RosterEntry) : RosterEntry :=
  { state := if p.sleepFlag then .asleep else .present
    age := e.age
    announced := some p.connState
    trippedLocal := e.trippedLocal && decide (p.connState = .tripped)
    lastClaim := if p.restartedFlag then none else e.lastClaim
    status := some (StatusPart.ofPayload p) }

/-- STATUS_RECEIVED (R26, R27, R42). -/
def execStatusReceived (src : StationId) (p : StatusPayload) (s : State) : Answer :=
  accepted src (.status p) (fun s =>
    let s := s.rosterFrame src (RosterEntry.takeStatus p)
    if p.restartedFlag then s.clearRecordOf src else s) s

/-! ## TRIP -/

/-- TRIP_RECEIVED (R28, R42, R148, R149). -/
def execTripReceived (src : StationId) (p : TripPayload) (s : State) : Answer :=
  accepted src (.trip p) (fun s =>
    if p.scope = Scope.bus.code then (s.rosterFrame src id).followBusTrip
    else (s.rosterFrame src fun e => { e with trippedLocal := true }).clearRecordOf src) s

/-! ## CLAIM -/

/-- The own claim yields to a peer's while its CLAIM is still queued (R49). -/
def State.yieldClaim (s : State) : State :=
  match s.closure.claim with
  | some c =>
    match c.phase with
    | .queued => ((s.withdrawClaim .trip).endClaim .yielded).changeConn .isolated .none
    | .awaiting _ _ => s
  | none => s

/-- Whether the record is held by a station other than the given one (R39, R65 test 1). -/
def State.recordHeldByOther (id : StationId) (s : State) : Bool :=
  match s.closure.record with
  | some r => decide (r.holder ≠ id)
  | none => false

/-- The record that a CLAIM sets (R39). -/
def ClosureRecord.ofClaim (src : StationId) (p : ClaimPayload) : ClosureRecord where
  holder := src
  number := p.number
  expiry := some (claimTimeoutMs p.timeoutCode + settleMs p.settleCode + 100)

/-- Test 3 of the answer (R65): it passes on a dead bus, or within the own window; without a sample it fails. -/
def State.answerWindow (voltage : Half) (s : State) : Bool :=
  match s.meas.sample with
  | some x => !x.busLive s.config || decide (voltageGap voltage x.vbus ≤ s.config.windowCount)
  | none => false

/-- The answer to a CLAIM, decided on the state before it touches the record (R65). -/
def State.answerTo (src : StationId) (p : ClaimPayload) (s : State) : Frame :=
  let target : Byte := src.setWidth 8
  if s.recordHeldByOther src then .object ⟨target, p.number, ObjectReason.busy.code⟩
  else if s.closure.quiet.isSome then .object ⟨target, p.number, ObjectReason.quiet.code⟩
  else if s.answerWindow p.voltage then .assent ⟨target, p.number⟩
  else .object ⟨target, p.number, ObjectReason.window.code⟩

/-- The record is set or replaced for the claimant unless another station holds it (R39). -/
def State.recordClaim (src : StationId) (p : ClaimPayload) (s : State) : State :=
  if s.recordHeldByOther src then s
  else { s with closure := { s.closure with record := some (ClosureRecord.ofClaim src p) } }

/-- CLAIM_RECEIVED (R29, R39, R49, R64, R65, R66). Outside ACTIVE the answer is not queued (R13, R64). -/
def execClaimReceived (src : StationId) (p : ClaimPayload) (s : State) : Answer :=
  accepted src (.claim p) (fun s =>
    let s := (s.rosterFrame src fun e => { e with lastClaim := some p.number }).yieldClaim
    (s.recordClaim src p).queueFrame (s.answerTo src p)) s

/-! ## OBJECT and ASSENT -/

/-- The awaited set and the time left of the current claim, if an answer with this target and number is for it (R52,
R53, R56). -/
def State.awaitingFor (target number : Byte) (s : State) : Option (List StationId × Nat) :=
  match s.closure.claim with
  | some c =>
    match c.phase with
    | .awaiting awaited timer =>
      if target = s.ownId.setWidth 8 ∧ number = s.closure.claimNumber then some (awaited, timer) else none
    | .queued => none
  | none => none

/-- OBJECT_RECEIVED (R53, R56). -/
def execObjectReceived (src : StationId) (p : ObjectPayload) (s : State) : Answer :=
  accepted src (.object p) (fun s =>
    let s := s.rosterFrame src id
    match s.awaitingFor p.target p.number, ObjectReason.ofCode p.reason with
    | some _, some reason => (s.queueAbandon .objected).failClaim (.objected src reason)
    | _, _ => s) s

/-- An ASSENT for the current claim removes its source from the awaited set; the last one leads to the window test (R52,
R54). -/
def State.takeAssent (src : StationId) (awaited : List StationId) (timer : Nat) (s : State) : State :=
  if src ∈ awaited then
    let left := awaited.filter fun id => decide (id ≠ src)
    let s := { s with closure := { s.closure with
      claim := s.closure.claim.map fun c => { c with phase := .awaiting left timer } } }
    if left = [] then s.windowTest else s
  else s

/-- ASSENT_RECEIVED (R52, R54, R56). -/
def execAssentReceived (src : StationId) (p : AssentPayload) (s : State) : Answer :=
  accepted src (.assent p) (fun s =>
    let s := s.rosterFrame src id
    match s.awaitingFor p.target p.number with
    | some (awaited, timer) => s.takeAssent src awaited timer
    | none => s) s

/-! ## CLOSED, ABANDON and RELEASE -/

/-- The record clears if the given peer holds it for the given claim (R42). -/
def State.clearRecordFor (id : StationId) (number : Byte) (s : State) : State :=
  match s.closure.record with
  | some r =>
    if r.holder = id ∧ r.number = number then { s with closure := { s.closure with record := none } } else s
  | none => s

/-- CLOSED_RECEIVED (R29, R42). -/
def execClosedReceived (src : StationId) (p : ClosedPayload) (s : State) : Answer :=
  accepted src (.closed p) (fun s =>
    (s.rosterFrame src fun e => { e with announced := some .connected, trippedLocal := false }).clearRecordFor src
      p.number) s

/-- ABANDON_RECEIVED (R30, R42). -/
def execAbandonReceived (src : StationId) (p : AbandonPayload) (s : State) : Answer :=
  accepted src (.abandon p) (fun s => (s.rosterFrame src id).clearRecordFor src p.number) s

/-- The update of an entry by a RELEASE (R30). -/
def RosterEntry.takeRelease (e : RosterEntry) : RosterEntry :=
  { e with announced := some .releasing, status := e.status.map fun x => { x with path := .none } }

/-- RELEASE_RECEIVED (R30). -/
def execReleaseReceived (src : StationId) (s : State) : Answer :=
  accepted src .release (fun s => s.rosterFrame src RosterEntry.takeRelease) s

/-! ## The end of SILENT -/

/-- SILENT is left for ACTIVE (R16): TEC is 0, BUS_SILENT is reported cleared and a STATUS queued. -/
def State.leaveSilent (s : State) : State :=
  ((({ s with mbi := { s.mbi with bus := .active, tec := 0, goodCount := 0, silenceTimer := none } } : State).takeClearance
    .busSilent)).handStatus

/-- SILENT_EXIT_COUNT (R16): the count of good frames has reached 16. -/
def execSilentExitCount (s : State) : Answer :=
  inRun s fun s =>
    if s.mbi.bus = .silent ∧ s.mbi.permanentSilence = false ∧ 16 ≤ s.mbi.goodCount then conclude s s.leaveSilent
    else .next s

/-- SILENCE_TIMER_EXPIRY (R16): the silence timer runs out. -/
def execSilenceTimerExpiry (s : State) : Answer :=
  inRun s fun s =>
    if s.mbi.bus = .silent ∧ s.mbi.permanentSilence = false ∧ s.mbi.silenceTimer.isSome then conclude s s.leaveSilent
    else .next s

end Sys2Proof.Machine
end

