-- ==== Sys2Proof/Machine/Sleep.lean ====
section
/-! DEFINITION. The commands of sleep, wake and self-check: SELF_CHECK_END, SLEEP_ENTRY, WAKE_LINE, CURRENT_WAKE, PORT_WAKE, WAKE_PULSE_END, MAIN_DOMAIN_READY (R151, R155 to R163). -/

namespace Sys2Proof.Machine

/-- The end of the wake sequence (R160). The restarted flag becomes set where the station is DETACHED or ISOLATED; a
station that a short has tripped in the wake's self-check keeps it clear (R93; log entry 18). -/
def State.endWake (s : State) : State :=
  let s := s.releaseMbi.startHoldOff.startStatusTimer
  let s := { s with
    conn := { s.conn with
      restarted := decide (s.conn.state = ConnState.detached) || decide (s.conn.state = ConnState.isolated) }
    power := { s.power with wakeCheck := false } }
  s.handStatus

/-- The end of a self-check (R163): state, result and flags; CHECK_DONE; conversion from 0; a STATUS when the self-check
failed flag changes (R92, R163), and when the check that the commit has started fails, whatever the flag was (R164, R170). -/
def State.endCheck (failed : CheckItems) (s : State) : State :=
  let passed := decide (failed = CheckItems.noneFailed)
  let handed := decide (s.power.checkFailed = passed) || (s.power.commitCheck && !passed)
  let s := { s with
    meas := { s.meas with cycleTimer := some 0 }
    power := { s.power with
      check := if passed then .passed else .failed
      checkTimer := none
      checkResult := failed
      checkFlag := s.power.checkFlag ^^ passed
      checkFailed := !passed } }
  let s := s.setEvent .checkDone
  if handed then s.handStatus else s

/-- SELF_CHECK_END (R160, R163). -/
def execSelfCheckEnd (failed : CheckItems) (s : State) : Answer :=
  inRun s fun s =>
    if s.power.check = .running then
      conclude s (if s.power.wakeCheck then (s.endCheck failed).endWake else s.endCheck failed)
    else .next s

/-- SLEEP_ENTRY (R153, R155): the list is found empty with the sleep pending. -/
def execSleepEntry (s : State) : Answer := if s.sleepDue then .next s.enterSleep else .next s

/-- WAKE_LINE (R157, R158): MWK has been low for 1 ms; LINE is latched and the power-up begins at once. -/
def execWakeLine (s : State) : Answer :=
  if s.power.phase = .sleep ∧ s.power.wakeLineArmed = true then
    .next { s with power := { s.power with phase := .powerUp, latch := .line, wakeLineRun := wakeLineMs } }
  else .next s

/-- CURRENT_WAKE (R125, R157, R158): the current has been above the wake current for 8 ms. -/
def execCurrentWake (current : Nat) (s : State) : Answer :=
  if s.power.phase = .sleep ∧ s.det.wakeCurrentArmed = true ∧ fieldNat s.config.wakeCurrent < current then
    .next { s with
      power := s.power.startPulse .current
      det := { s.det with wakeCurrentRun := wakeCurrentMs } }
  else .next s

/-- PORT_WAKE (R156, R157): SSN is asserted in SLEEP, or while a wake is under way. -/
def execPortWake (s : State) : Answer := if s.asleep then .next s.selectAsleep else .next s

/-- WAKE_PULSE_END (R158, R159): MWK is released and the power-up begins. -/
def execWakePulseEnd (s : State) : Answer :=
  if s.power.phase = .wakePulse then
    .next { s with power := { s.power with phase := .powerUp, pulseTimer := none } }
  else .next s

/-- Step 3 of the wake sequence (R91, R119, R125, R151, R159): the main domain stands at its wake values, with the MBI still
OFF, and step 4 begins. -/
def State.wakeMainDomain (s : State) : State :=
  let s := { s with
    power := { s.power with
      phase := .run
      wakeLineArmed := false
      wakeLineRun := 0
      pulseTimer := none
      wakeCheck := true }
    conn := .atRest s.wakeConn s.conn.joined
    switches := { chg := false, dsg := false }
    det := .quiet
    port := { s.port with events := 0, enables := 0 } }
  s.armShort.startSelfCheck

/-- MAIN_DOMAIN_READY (R159): the power-up ends; the comparator judges the current at its arming (R119). -/
def execMainDomainReady (current : Nat) (s : State) : Answer :=
  if s.power.phase = .powerUp then conclude s (s.wakeMainDomain.judgeShort current) else .next s

end Sys2Proof.Machine
end

