-- ==== Sys2Proof/Machine/Resets.lean ====
section
/-! DEFINITION. The commands of the supplies and the resets: VKA_LOSS, POWER_ON_RESET_END, RESETN_LOW, VDD_LOW, PIN_RESET_END, SERVICE_RESET_END, SSN_RELEASE, TRANSACTION_BEGIN (R151, R161, R165, R171 to R178, R180, R189, R190). -/

namespace Sys2Proof.Machine

/-! ## The start of a reset -/

/-- The select line after the start of a reset: a transaction under way ends (R171, R180). -/
def PortLine.afterReset : PortLine → PortLine
  | .released => .released
  | .openRun | .openWaking | .openReset => .openReset

/-- The port as the start of a reset leaves it (R171, R177, R189). A service reset that was taken and waits for the rise of
SSN does not wait beyond that start, which is the model's choice (log entry 43). -/
def Port.halted (p : Port) : Port :=
  { line := p.line.afterReset, response := none, resetPending := false, events := 0, enables := 0 }

/-- The start of a pin or service reset, as one change (R171), with what the reset keeps (R20, R37, R46, R61, R94, R99,
R126, R150, R161, R174, R175): a service reset keeps the permanent-silence mark, the wake-source latch, and a LOCKOUT
state with its window. -/
def State.halt (service : Bool) (s : State) : State :=
  let locked := service && decide (s.conn.state = .lockout)
  { s with
    mbi := .offState (service && s.mbi.permanentSilence)
    roster := []
    closure := .empty
    conn := .atRest (if locked then .lockout else .detached) false
    switches := { chg := false, dsg := false }
    meas := { sample := none, cycleTimer := none }
    det := .quiet
    fault := { s.fault with
      register := .quiet, portHolds := 0, closingHold := false, lockout := if locked then s.fault.lockout else none }
    power :=
      { phase := if service then .serviceReset else .pinReset
        latch := if service then s.power.latch else .none
        wakeLineArmed := false, wakeLineRun := 0, pulseTimer := none, check := .notRun, checkTimer := none,
        checkResult := .noneFailed, checkFailed := false, checkFlag := s.power.checkFlag, wakeCheck := false,
        commitCheck := false }
    port := s.port.halted }

/-- A pin reset starts, unless the part is in a power-on reset, of which it is a part, or in a pin reset already (R172,
R173, R190). It turns a service reset into a pin reset (R176). -/
def State.startPinReset (s : State) : State :=
  match s.power.phase with
  | .unpowered | .powerOnReset | .pinReset => s
  | .serviceReset | .run | .sleep | .wakePulse | .powerUp => s.halt false

/-! ## The commands -/

/-- VKA_LOSS (R151, R171, R190): the keep-alive supply is lost, and everything with it. Until the end of the power-on
reset the fields stand at their initial values, with the MBI OFF and every timer stopped (log entry 31). The gate outputs are not driven until VKA returns (R91). -/
def execVkaLoss (s : State) : Answer :=
  .next { State.reset with
    pending := s.pending
    choices := s.choices
    pins := s.pins
    mbi := .offState false
    closure := .empty
    conn := .atRest .detached false
    meas := { sample := none, cycleTimer := none }
    power := { State.reset.power with phase := .unpowered }
    port := s.port.halted }

/-- POWER_ON_RESET_END (R165, R172). Where VKA is still absent the row stands for its return too (log entry 41). -/
def execPowerOnResetEnd (straps : StationId) (s : State) : Answer :=
  if s.power.phase = .unpowered ∨ s.power.phase = .powerOnReset then
    .next ({ State.reset with
      pending := s.pending
      choices := s.choices
      pins := s.pins
      ownId := straps
      port := { State.reset.port with line := s.port.line } } : State).startHoldOff
  else .next s

/-- RESETN_LOW (R173): a low pulse of the given width in microseconds; in the middle band the filter's choice is given. -/
def execResetnLow (width : Nat) (taken : Bool) (s : State) : Answer :=
  if 50 ≤ width ∨ (20 ≤ width ∧ taken = true) then .next s.startPinReset else .next s

/-- VDD_LOW (R174, R190): VDD falls below its range while VKA stands, which is a pin reset. -/
def execVddLow (s : State) : Answer := .next s.startPinReset

/-- PIN_RESET_END (R165, R173, R174). -/
def execPinResetEnd (straps : StationId) (current : Nat) (s : State) : Answer :=
  if s.power.phase = .pinReset then
    let running := { s with ownId := straps, power := { s.power with phase := .run } }
    conclude s (running.startUp.judgeShort current)
  else .next s

/-- SERVICE_RESET_END (R175). -/
def execServiceResetEnd (current : Nat) (s : State) : Answer :=
  if s.power.phase = .serviceReset then
    let running := { s with power := { s.power with phase := .run } }
    conclude s (running.startUp.judgeShort current)
  else .next s

/-- SSN_RELEASE (R175, R178): the transaction ends, and a service reset that waits for it starts. -/
def execSsnRelease (s : State) : Answer :=
  let s := { s with port := { s.port with line := .released } }
  if s.power.phase = .run ∧ s.port.resetPending = true then .next (s.halt true) else .next s

/-- TRANSACTION_BEGIN (R177, R180): SSN falls. -/
def execTransactionBegin (s : State) : Answer := .next s.select

end Sys2Proof.Machine
end

