-- ==== Sys2Proof/Machine/Timers.lean ====
section
/-! DEFINITION. The commands of the timers that run out in RUN: the roster's limits (R31, R32, R34), the closure record (R41), the claim timer (R33, R55), hold-off and quiet period (R62, R63), settle end (R79, R80), release interval (R86), STATUS period (R92), lockout window (R140). Each is taken whenever its timer runs (log entry 3). -/

namespace Sys2Proof.Machine

/-- ROSTER_STALE_LIMIT (R31, R32): the age of a PRESENT entry passes its STALE limit. -/
def execRosterStaleLimit (id : StationId) (s : State) : Answer :=
  inRun s fun s =>
    match rosterGet id s.roster with
    | some e =>
      if e.state = .present ∧ s.mbi.bus ≠ .off then
        let aged : RosterEntry := { e with state := .stale, age := max e.age (staleLimitMs e.periodMs) }
        conclude s (({ s with roster := rosterSet id aged s.roster } : State).setEvent .peerStale)
      else .next s
    | none => .next s

/-- ROSTER_EMPTY_LIMIT (R31, R32, R34): the age of a STALE entry passes its EMPTY limit. -/
def execRosterEmptyLimit (id : StationId) (s : State) : Answer :=
  inRun s fun s =>
    match rosterGet id s.roster with
    | some e =>
      if e.state = .stale ∧ s.mbi.bus ≠ .off then
        conclude s ((({ s with roster := rosterClear id s.roster } : State).setEvent .peerLost).clearRecordOf id)
      else .next s
    | none => .next s

/-- RECORD_EXPIRY (R41): a record held by a peer lapses. -/
def execRecordExpiry (s : State) : Answer :=
  inRun s fun s =>
    match s.closure.record with
    | some r =>
      if r.expiry.isSome then conclude s { s with closure := { s.closure with record := none } } else .next s
    | none => .next s

/-- CLAIM_TIMER_EXPIRY (R33, R55). -/
def execClaimTimerExpiry (s : State) : Answer :=
  inRun s fun s =>
    match s.closure.claim with
    | some c =>
      match c.phase with
      | .awaiting awaited _ => conclude s (((s.markStale awaited).queueAbandon .noAnswer).failClaim .noAnswer)
      | .queued => .next s
    | none => .next s

/-- HOLD_OFF_EXPIRY (R62). -/
def execHoldOffExpiry (s : State) : Answer :=
  inRun s fun s =>
    if s.closure.holdOff.isSome then conclude s { s with closure := { s.closure with holdOff := none } } else .next s

/-- QUIET_PERIOD_EXPIRY (R63). -/
def execQuietPeriodExpiry (s : State) : Answer :=
  inRun s fun s =>
    if s.closure.quiet.isSome then conclude s { s with closure := { s.closure with quiet := none } } else .next s

/-- Step 3 of the settle end (R79, R80): CLOSED is queued with the claim's number and the latest Vbus, and the state
becomes CONNECTED with the path of the path sources. -/
def State.finishClosing (s : State) : State :=
  let vbus := (s.meas.sample.map (·.vbus)).getD 0
  (s.queueFrame (.closed ⟨s.closure.claimNumber, vbus⟩)).changeConn .connected s.sourcePath

/-- SETTLE_END (R79): the closing hold goes first; a trip that its removal makes stands. -/
def execSettleEnd (s : State) : Answer :=
  inRun s fun s =>
    if s.conn.state = .closing ∧ s.conn.settle.isSome then
      let lifted := s.liftClosingHold
      conclude s (if lifted.conn.state = .closing then lifted.finishClosing else lifted)
    else .next s

/-- RELEASE_TIMER_EXPIRY (R86). -/
def execReleaseTimerExpiry (s : State) : Answer :=
  inRun s fun s =>
    if s.conn.state = .releasing ∧ s.conn.release.isSome then conclude s (s.changeConn .detached .none) else .next s

/-- STATUS_TIMER_EXPIRY (R92): a STATUS is handed over and the timer starts again. -/
def execStatusTimerExpiry (s : State) : Answer :=
  inRun s fun s =>
    if s.conn.statusTimer.isSome then conclude s s.startStatusTimer.handStatus else .next s

/-- LOCKOUT_WINDOW_EXPIRY (R140): the window simply stops. -/
def execLockoutWindowExpiry (s : State) : Answer :=
  inRun s fun s =>
    if s.fault.lockout.isSome then .next { s with fault := { s.fault with lockout := none } } else .next s

end Sys2Proof.Machine
end

