-- ==== Sys2Proof/Machine/Transmit.lean ====
section
/-! DEFINITION. The commands of the line and of the own attempt: LINE_IDLE, COLLISION_ERROR, TX_SUCCESS, TX_ATTEMPT_FAILED (R2 to R5, R10, R11, R14, R40, R51). -/

namespace Sys2Proof.Machine

/-- The station receives what others send: the line is busy, and a start mark was read (R3, R16). -/
def State.othersSend (s : State) : State :=
  let s := s.startMarkRead
  { s with mbi := { s.mbi with line := .busy } }

/-- Others offer at this idle as well, the lowest of their ranks given: the station that is ACTIVE with a frame to send
starts with them and stays a transmitter unless it loses arbitration inside the rank byte (R3, R4). -/
def State.offerAgainst (rank : Byte) (s : State) : State :=
  match s.mbi.list with
  | [] => s.othersSend
  | f :: _ =>
    if s.mbi.bus = .active ∧ arbitrationLost (rankByte f.frame.kind.code s.ownId) rank = false then
      { s with mbi := { s.mbi with tx := .sending f.frame.kind, line := .busy } }
    else s.othersSend

/-- LINE_IDLE (R2, R3, R4): eleven recessive bit times outside a frame have been read. -/
def execLineIdle (contest : IdleContest) (s : State) : Answer :=
  inRun s fun s =>
    if s.mbi.bus = .off ∨ s.mbi.tx ≠ .none then .next s
    else
      let s := { s with mbi := { s.mbi with line := .idle } }
      match contest with
      | .alone => .next s.offer
      | .startMarkSeen => .next s.othersSend
      | .offered rank => .next (s.offerAgainst rank)

/-- COLLISION_ERROR (R5): the transmitter stops driving; its attempt has failed, and R11 is taken with
TX_ATTEMPT_FAILED (log entry 6). -/
def execCollisionError (s : State) : Answer :=
  inRun s fun s =>
    match s.mbi.tx with
    | .sending k => .next { s with mbi := { s.mbi with tx := .collided k } }
    | .none => .next s
    | .collided _ => .next s

/-- The Closure Engine is told that the CLAIM has been transmitted (R10, R14): a withdrawal comes too late, and LEAVE's
is answered with ABANDON(LEAVE) for the transmitted number (R58, R59); otherwise the claim is captured (R40, R51). -/
def State.claimTransmitted (number : Byte) (withdrawal : Option Withdrawal) (s : State) : State :=
  match withdrawal with
  | some .leave => s.queueFrame (.abandon ⟨number, AbandonReason.leave.code⟩)
  | some .trip => s
  | none =>
    match s.closure.claim with
    | some c =>
      match c.phase with
      | .queued => s.captureClaim c
      | .awaiting _ _ => s
    | none => s

/-- The MBI's own part of a successful transmission (R10): the frame leaves, TEC falls, held frames are taken. -/
def Mbi.sent (k : FrameKind) (m : Mbi) : Mbi :=
  Mbi.releaseHeld { m with
    list := removeKind k m.list
    tec := m.tec - 1
    tx := .none
    line := .busy
    withdrawal := if k = .claim then none else m.withdrawal }

/-- The transmitted frame leaves and the block that queued it is told (R10, R93). -/
def State.transmitted (f : Frame) (s : State) : State :=
  let withdrawal := s.mbi.withdrawal
  let s := { s with mbi := s.mbi.sent f.kind }
  match f with
  | .claim p => s.claimTransmitted p.number withdrawal
  | .status p => if p.restartedFlag then { s with conn := { s.conn with restarted := false } } else s
  | .trip _ | .object _ | .assent _ | .closed _ | .abandon _ | .release => s

/-- TX_SUCCESS (R10): the reject slot read recessive after an attempt without collision. -/
def execTxSuccess (s : State) : Answer :=
  inRun s fun s =>
    match s.mbi.tx with
    | .sending k =>
      match findKind k s.mbi.list with
      | some f => conclude s (s.transmitted f.frame)
      | none => .next s
    | .none => .next s
    | .collided _ => .next s

/-- The frame whose attempt has failed is dropped at its eighth failure, and otherwise keeps its place with its count
raised (R11). -/
def State.countFailure (k : FrameKind) (s : State) : State :=
  match findKind k s.mbi.list with
  | none => s
  | some f =>
    if 8 ≤ f.failed + 1 then
      let s := ({ s with mbi := { s.mbi with list := removeKind k s.mbi.list } } : State).setEvent .txDropped
      match k, s.closure.claim with
      | .claim, some _ => s.failClaim .dropped
      | _, _ => s
    else { s with mbi := { s.mbi with list := bumpFailed k s.mbi.list } }

/-- A failed attempt (R11): TEC rises; a frame whose withdrawal waits is withdrawn (R14), any other counts the failure;
held frames are taken (R13); then the new TEC is tested (R15). -/
def State.attemptFailed (k : FrameKind) (race : Race) (s : State) : State :=
  let s := { s with mbi := { s.mbi with tec := min 255 (s.mbi.tec + 8), tx := .none, line := .busy } }
  let s :=
    if k = .claim ∧ s.mbi.withdrawal.isSome then { s with mbi := s.mbi.takeWithdrawal } else s.countFailure k
  let s := { s with mbi := s.mbi.releaseHeld }
  if 128 ≤ s.mbi.tec then s.enterSilent race else s

/-- TX_ATTEMPT_FAILED (R11): by a collision error or by a dominant reject slot. -/
def execTxAttemptFailed (race : Race) (s : State) : Answer :=
  inRun s fun s =>
    match s.mbi.onLine with
    | some k => conclude s (s.attemptFailed k race)
    | none => .next s

end Sys2Proof.Machine
end

