-- ==== Sys2Proof/Machine/Dispatch.lean ====
section
/-! DEFINITION. The dispatch: one arm per command of Syntax.lean, each one call of its meaning. -/

namespace Sys2Proof.Machine

def exec (i : Instr) (s : State) : Host.Outcome State Fault Refusal :=
  match i with
  | .lineIdle contest => Sys2Proof.Machine.execLineIdle contest s
  | .collisionError => Sys2Proof.Machine.execCollisionError s
  | .txSuccess => Sys2Proof.Machine.execTxSuccess s
  | .txAttemptFailed race => Sys2Proof.Machine.execTxAttemptFailed race s
  | .frameFaulty frame => Sys2Proof.Machine.execFrameFaulty frame s
  | .frameRejected frame => Sys2Proof.Machine.execFrameRejected frame s
  | .unknownKindFrame frame => Sys2Proof.Machine.execUnknownKindFrame frame s
  | .statusReceived src p => Sys2Proof.Machine.execStatusReceived src p s
  | .tripReceived src p => Sys2Proof.Machine.execTripReceived src p s
  | .claimReceived src p => Sys2Proof.Machine.execClaimReceived src p s
  | .objectReceived src p => Sys2Proof.Machine.execObjectReceived src p s
  | .assentReceived src p => Sys2Proof.Machine.execAssentReceived src p s
  | .closedReceived src p => Sys2Proof.Machine.execClosedReceived src p s
  | .abandonReceived src p => Sys2Proof.Machine.execAbandonReceived src p s
  | .releaseReceived src => Sys2Proof.Machine.execReleaseReceived src s
  | .silentExitCount => Sys2Proof.Machine.execSilentExitCount s
  | .silenceTimerExpiry => Sys2Proof.Machine.execSilenceTimerExpiry s
  | .rosterStaleLimit id => Sys2Proof.Machine.execRosterStaleLimit id s
  | .rosterEmptyLimit id => Sys2Proof.Machine.execRosterEmptyLimit id s
  | .recordExpiry => Sys2Proof.Machine.execRecordExpiry s
  | .claimTimerExpiry => Sys2Proof.Machine.execClaimTimerExpiry s
  | .holdOffExpiry => Sys2Proof.Machine.execHoldOffExpiry s
  | .quietPeriodExpiry => Sys2Proof.Machine.execQuietPeriodExpiry s
  | .settleEnd => Sys2Proof.Machine.execSettleEnd s
  | .releaseTimerExpiry => Sys2Proof.Machine.execReleaseTimerExpiry s
  | .statusTimerExpiry => Sys2Proof.Machine.execStatusTimerExpiry s
  | .sampleComplete inputs race => Sys2Proof.Machine.execSampleComplete inputs race s
  | .shortOnset current => Sys2Proof.Machine.execShortOnset current s
  | .shortClearance current => Sys2Proof.Machine.execShortClearance current s
  | .lockoutWindowExpiry => Sys2Proof.Machine.execLockoutWindowExpiry s
  | .selfCheckEnd failed => Sys2Proof.Machine.execSelfCheckEnd failed s
  | .sleepEntry => Sys2Proof.Machine.execSleepEntry s
  | .wakeLine => Sys2Proof.Machine.execWakeLine s
  | .currentWake current => Sys2Proof.Machine.execCurrentWake current s
  | .portWake => Sys2Proof.Machine.execPortWake s
  | .wakePulseEnd => Sys2Proof.Machine.execWakePulseEnd s
  | .mainDomainReady current => Sys2Proof.Machine.execMainDomainReady current s
  | .vkaLoss => Sys2Proof.Machine.execVkaLoss s
  | .powerOnResetEnd straps => Sys2Proof.Machine.execPowerOnResetEnd straps s
  | .resetnLow width taken => Sys2Proof.Machine.execResetnLow width taken s
  | .vddLow => Sys2Proof.Machine.execVddLow s
  | .pinResetEnd straps current => Sys2Proof.Machine.execPinResetEnd straps current s
  | .serviceResetEnd current => Sys2Proof.Machine.execServiceResetEnd current s
  | .ssnRelease => Sys2Proof.Machine.execSsnRelease s
  | .ident => Sys2Proof.Machine.execIdent s
  | .statusRead => Sys2Proof.Machine.execStatusRead s
  | .sampleRead => Sys2Proof.Machine.execSampleRead s
  | .rosterRead id => Sys2Proof.Machine.execRosterRead id s
  | .faultRead => Sys2Proof.Machine.execFaultRead s
  | .historyRead => Sys2Proof.Machine.execHistoryRead s
  | .countersRead => Sys2Proof.Machine.execCountersRead s
  | .closureRead => Sys2Proof.Machine.execClosureRead s
  | .configWrite field value => Sys2Proof.Machine.execConfigWrite field value s
  | .configCommit current => Sys2Proof.Machine.execConfigCommit current s
  | .join => Sys2Proof.Machine.execJoin s
  | .leave => Sys2Proof.Machine.execLeave s
  | .sleep => Sys2Proof.Machine.execSleep s
  | .ackTrip => Sys2Proof.Machine.execAckTrip s
  | .setHolds mask => Sys2Proof.Machine.execSetHolds mask s
  | .clearFaults mask => Sys2Proof.Machine.execClearFaults mask s
  | .check => Sys2Proof.Machine.execCheck s
  | .eventClear mask => Sys2Proof.Machine.execEventClear mask s
  | .eventEnable mask => Sys2Proof.Machine.execEventEnable mask s
  | .serviceReset => Sys2Proof.Machine.execServiceReset s
  | .unknownCommand code => Sys2Proof.Machine.execUnknownCommand code s
  | .transactionBegin => Sys2Proof.Machine.execTransactionBegin s

end Sys2Proof.Machine
end

