-- ==== Sys2Proof/Config.lean ====
section
/-! DEFINITION. The free values of the model: constants without a body, which no proof can evaluate. They stand for orders that the manual leaves open (00_scope.md, Time: "the rule for that state gives the outcome of each order") for the two inputs that the wake detectors read in SLEEP, and for the return of VKA. -/

namespace Sys2Proof

/-- The free order among commands that come due in the same millisecond while no command waits: which of them goes
first. Applied to the plain counter `choices` of the state. Log entry 2. -/
opaque Config.freePick : Nat → Nat

/-- The free order inside a due TX_ATTEMPT_FAILED (R50, R154), applied to the same counter. Log entry 2. -/
opaque Config.freeRace : Nat → Race

/-- The level of MWK that the wake-line detector reads in a millisecond of SLEEP, true for low: the line is the outside's
(R157). Applied to the same counter. Log entry 39. -/
opaque Config.freeMwkLow : Nat → Bool

/-- The magnitude of the current that the wake-current detector reads in a millisecond of SLEEP, in 10 mA (R125). Applied
to the same counter. Log entry 39. -/
opaque Config.freeCurrent : Nat → Nat

/-- Whether VKA has returned after a millisecond without it: the supply is the outside's (R172, R190). Applied to the same
counter. Log entry 41. -/
opaque Config.freeVka : Nat → Bool

end Sys2Proof
end

