-- ==== Sys2Proof/Machine/Time.lean ====
section
/-! DEFINITION. Time: the commands that come due by themselves while no command waits, and the passing of 1 ms (00_scope.md, Time; log entries 1, 2, 14, 38, 39 and 41). -/

namespace Sys2Proof.Machine

/-! ## What has come due -/

/-- A command that follows within the same millisecond: the failure of an attempt that met a collision (R5, R11), the
entry into SLEEP on an empty list (R153), the end of SILENT at 16 good frames (R16). -/
def State.dueAtOnce (s : State) : Option Instr :=
  match s.mbi.tx with
  | .collided _ => some (.txAttemptFailed (Config.freeRace s.choices))
  | .none | .sending _ =>
    if s.sleepDue then some .sleepEntry
    else if s.mbi.bus = .silent ∧ s.mbi.permanentSilence = false ∧ 16 ≤ s.mbi.goodCount then some .silentExitCount
    else none

/-- A command that a timer at 0 makes due. -/
def dueAt (timer : Option Nat) (c : Instr) : List Instr := if timer = some 0 then [c] else []

/-- The limits that roster entries have reached (R31, R32). -/
def rosterDue (r : List RosterSlot) : List Instr :=
  r.flatMap fun x =>
    match x.entry.state with
    | .present => if staleLimitMs x.entry.periodMs ≤ x.entry.age then [.rosterStaleLimit x.id] else []
    | .stale => if emptyLimitMs x.entry.periodMs ≤ x.entry.age then [.rosterEmptyLimit x.id] else []
    | .asleep => []

/-- The time left on the claim timer (R47). -/
def Closure.claimTimer (c : Closure) : Option Nat :=
  match c.claim with
  | some x =>
    match x.phase with
    | .awaiting _ timer => some timer
    | .queued => none
  | none => none

/-- The commands that timers have made due in RUN. -/
def State.dueInRun (s : State) : List Instr :=
  dueAt (s.closure.record.bind (·.expiry)) .recordExpiry ++ dueAt s.closure.claimTimer .claimTimerExpiry
    ++ dueAt s.closure.holdOff .holdOffExpiry ++ dueAt s.closure.quiet .quietPeriodExpiry
    ++ dueAt s.conn.settle .settleEnd ++ dueAt s.conn.release .releaseTimerExpiry
    ++ dueAt s.conn.statusTimer .statusTimerExpiry ++ dueAt s.fault.lockout .lockoutWindowExpiry
    ++ dueAt s.mbi.silenceTimer .silenceTimerExpiry ++ rosterDue s.roster

/-- The reports of the wake detectors whose run timers have reached their length in SLEEP (R125, R157). -/
def State.dueInSleep (s : State) : List Instr :=
  (if s.power.wakeLineArmed = true ∧ wakeLineMs ≤ s.power.wakeLineRun then [.wakeLine] else [])
    ++ (if s.det.wakeCurrentArmed = true ∧ wakeCurrentMs ≤ s.det.wakeCurrentRun
            ∧ fieldNat s.config.wakeCurrent < s.pins.current then [.currentWake s.pins.current] else [])

/-- The commands that timers have made due. -/
def State.due (s : State) : List Instr :=
  match s.power.phase with
  | .run => s.dueInRun
  | .wakePulse => dueAt s.power.pulseTimer .wakePulseEnd
  | .sleep => s.dueInSleep
  | .unpowered | .powerOnReset | .pinReset | .serviceReset | .powerUp => []

/-- The commands that could be taken next while none waits. -/
def State.candidates (s : State) : List Instr :=
  match s.power.phase, s.dueAtOnce with
  | .run, some c => [c]
  | _, _ => s.due

/-- The state with the counter of free choices advanced. -/
def State.chosen (s : State) : State := { s with choices := s.choices + 1 }

/-- The command that is taken next while none waits, with the state it is taken in: one of those due, in a free order. -/
def State.nextDue (s : State) : Option (Instr × State) :=
  match s.candidates with
  | [] => none
  | c :: cs => some (((c :: cs)[Config.freePick s.choices % (cs.length + 1)]?).getD c, s.chosen)

/-! ## The passing of 1 ms -/

/-- A timer after 1 ms. -/
def tickTimer (timer : Option Nat) : Option Nat := timer.map (· - 1)

/-- A roster slot after 1 ms: PRESENT and STALE entries age (R31). -/
def RosterSlot.tick (x : RosterSlot) : RosterSlot :=
  match x.entry.state with
  | .present | .stale => { x with entry := { x.entry with age := x.entry.age + 1 } }
  | .asleep => x

/-- The claim timer after 1 ms (R47). -/
def Claim.tick (c : Claim) : Claim :=
  match c.phase with
  | .queued => c
  | .awaiting ids timer => { c with phase := .awaiting ids (timer - 1) }

/-- The Closure Engine after 1 ms (R41, R62, R63). -/
def Closure.tick (c : Closure) : Closure :=
  { c with
    record := c.record.map fun r => { r with expiry := tickTimer r.expiry }
    claim := c.claim.map Claim.tick
    holdOff := tickTimer c.holdOff
    quiet := tickTimer c.quiet }

/-- Whether time in RUN waits for something that only the outside can give: the inputs of the sample now complete, the
outcome of the self-check now at its end (log entry 14). -/
def State.waits (s : State) : Bool :=
  decide (s.meas.cycleTimer = some cycleMs) || decide (s.power.checkTimer = some 0)

/-- 1 ms of RUN. -/
def State.tickRun (s : State) : State :=
  { s with
    mbi := { s.mbi with silenceTimer := tickTimer s.mbi.silenceTimer }
    roster := if s.mbi.bus = .off then s.roster else s.roster.map RosterSlot.tick
    closure := s.closure.tick
    conn := { s.conn with
      settle := tickTimer s.conn.settle
      release := tickTimer s.conn.release
      statusTimer := tickTimer s.conn.statusTimer }
    meas := { s.meas with cycleTimer := s.meas.cycleTimer.map (· + 1) }
    fault := { s.fault with lockout := tickTimer s.fault.lockout }
    power := { s.power with checkTimer := tickTimer s.power.checkTimer } }

/-- The run timer of a wake detector after 1 ms (R125, R157): while armed it rises where its input was active, up to the
detector's run length, and is otherwise 0; a disarmed detector does not move. -/
def wakeRun (armed active : Bool) (length run : Nat) : Nat :=
  if armed then if active then min length (run + 1) else 0 else run

/-- 1 ms of SLEEP, in which the wake detectors are the only circuits that run (R151): each reads its input, MWK and the
sense resistor, whose level for this millisecond is a free value (log entry 39), and its run timer follows. -/
def State.tickSleep (s : State) : State :=
  let low := Config.freeMwkLow s.choices
  let current := Config.freeCurrent s.choices
  { s with
    choices := s.choices + 1
    pins := { mwkLow := low, current := current }
    power := { s.power with wakeLineRun := wakeRun s.power.wakeLineArmed low wakeLineMs s.power.wakeLineRun }
    det := { s.det with
      wakeCurrentRun := wakeRun s.det.wakeCurrentArmed (decide (fieldNat s.config.wakeCurrent < current)) wakeCurrentMs
        s.det.wakeCurrentRun } }

/-- 1 ms without VKA: the supply stays absent or returns, which is a free choice (log entry 41), and with its return the
power-on reset begins (R172, R190). -/
def State.tickUnpowered (s : State) : State :=
  { s with
    choices := s.choices + 1
    power := { s.power with phase := if Config.freeVka s.choices then .powerOnReset else .unpowered } }

/-- 1 ms passes. In RUN the timers run, in SLEEP those of the wake detectors, in the wake pulse its own (R151, R158), and
without VKA the supply may return; elsewhere nothing happens. A part that waits for the outside idles (log entry 14). -/
def State.passTime (s : State) : State :=
  match s.power.phase with
  | .run => if s.waits then s else s.tickRun
  | .sleep => s.tickSleep
  | .wakePulse => { s with power := { s.power with pulseTimer := tickTimer s.power.pulseTimer } }
  | .unpowered => s.tickUnpowered
  | .powerOnReset | .pinReset | .serviceReset | .powerUp => s

end Sys2Proof.Machine
end

