-- ==== Sys2Proof/Machine/Step.lean ====
section
/-! DEFINITION. The step: the command at the front of the queue is taken; with an empty queue a command that has come due is taken, or 1 ms passes (log entry 1). -/

namespace Sys2Proof.Machine

/-- One step of the part. -/
def step (s : State) : Host.Outcome State Fault Refusal :=
  match s.pending with
  | c :: rest => exec c { s with pending := rest }
  | [] =>
    match s.nextDue with
    | some (c, s') => exec c s'
    | none => .next s.passTime

/-- The state with a command put at the front of its queue. -/
def State.withCommand (s : State) (c : Instr) : State := { s with pending := c :: s.pending }

/-- The state with the command that a word of the opcode table spells put at the front of its queue; unchanged where the
word spells none (log entry 32). -/
def State.withFetchWord (s : State) (nbits w : Nat) : State :=
  match decodeTableWord nbits w with
  | some c => s.withCommand c
  | none => s

end Sys2Proof.Machine
end

