-- ==== Sys2Proof/Safety.lean ====
section
/-! DEFINITION. The properties that the statements speak of: how a command ends, when the port judges a request, the layouts of the port's responses, and the invariants of the part. -/

namespace Sys2Proof

open Sys2Proof.Machine

/-- Whether a frame is a STATUS that carries the restarted flag (R93). -/
def Frame.carriesRestarted : Frame → Bool
  | .status p => p.restartedFlag
  | .trip _ | .claim _ | .object _ | .assent _ | .closed _ | .abandon _ | .release => false

end Sys2Proof

namespace Sys2Proof.Machine

/-! ## How commands end, and when they are judged -/

/-- A peer announces a closure: its entry announces CLOSING or CONNECTED and is not marked tripped-local (R35). -/
def State.PeerAnnounces (s : State) : Prop :=
  ∃ x ∈ s.roster, x.entry.trippedLocal = false
    ∧ (x.entry.announced = some .closing ∨ x.entry.announced = some .connected)

/-- The conditions of R74 other than the voltage condition. -/
def State.MayClaim (s : State) : Prop :=
  s.conn.state = .isolated ∧ s.power.check = .passed ∧ s.conn.sleepPending = false ∧ s.mbi.bus = .active
    ∧ s.mbi.rejectMuted = false ∧ s.closure.record = none ∧ s.closure.holdOff = none ∧ s.closure.quiet = none
    ∧ ∀ f ∈ s.mbi.list, f.frame.kind.isOwnConnection = false

/-- The voltage condition of R76 on the latest sample: on a live bus the difference is at most the closure window, and on a
dead one no peer announces a closure. Levels in 10 mV against values in 2 mV. -/
def State.VoltageHolds (s : State) : Prop :=
  ∃ x, s.meas.sample = some x
    ∧ (5 * fieldNat s.config.deadBus ≤ x.vbus.toNat →
        ((x.vmod.toNat : Int) - x.vbus.toNat).natAbs ≤ 5 * fieldNat s.config.window)
    ∧ (x.vbus.toNat < 5 * fieldNat s.config.deadBus → ¬ s.PeerAnnounces)

/-- The station is eligible to claim (R74). -/
def State.Eligible (s : State) : Prop := s.MayClaim ∧ s.VoltageHolds

/-- The eligibility test fails on nothing but a dead bus beside an announced closure (R76). -/
def State.SenseConflict (s : State) : Prop :=
  s.MayClaim ∧ s.PeerAnnounces
    ∧ ∃ x, s.meas.sample = some x ∧ x.vbus.toNat < 5 * fieldNat s.config.deadBus

/-- `t` is `u` after the end of a command that began in `s` (R3, R13, R48, R75, R76). A station that the command has left
eligible begins its claim, and one that it has left with a bus-sense conflict sets BUS_SENSE_CONFLICT, unless it stood so
before the command already, when the test of that moment was made; where a condition of R74 or R76 fails, no claim begins.
The last thing is the offer on an idle line. -/
def EndOfCommand (s u t : State) : Prop :=
  (u.Eligible → t = u.beginClaim.offer ∨ (s.Eligible ∧ t = u.offer))
  ∧ (u.SenseConflict → t = (u.setEvent .busSenseConflict).offer ∨ (s.SenseConflict ∧ t = u.offer))
  ∧ (¬ u.Eligible → ¬ u.SenseConflict → t = u.offer)

/-- The port judges what it is sent: RUN, in a transaction that was begun in RUN, that no reset has cut, and in which
nothing has been taken yet (R178, R180). -/
def State.PortJudges (s : State) : Prop :=
  s.power.phase = .run ∧ s.port.line = .openRun ∧ s.port.response = none

/-- The port judges a request: no self-check runs (R162, R180). -/
def State.TakesRequests (s : State) : Prop := s.PortJudges ∧ s.power.check ≠ .running

/-! ## What comes due by itself -/

/-- A pending sleep can be entered: the list empty, SSN high, no service reset waiting, no self-check running (R153, R164,
R176; log entry 23). -/
def State.SleepStands (s : State) : Prop :=
  s.conn.sleepPending = true ∧ s.mbi.list = [] ∧ s.port.line = .released ∧ s.port.resetPending = false
    ∧ s.power.check ≠ .running

/-- SILENT has seen its 16 good frames (R16). -/
def State.SilenceServed (s : State) : Prop :=
  s.mbi.bus = .silent ∧ s.mbi.permanentSilence = false ∧ 16 ≤ s.mbi.goodCount

/-- The age at which a PRESENT entry passes its STALE limit, from the table of R31. -/
def RosterEntry.staleLimit (e : RosterEntry) : Nat :=
  match e.status.map (·.period.toNat) with
  | some 0 => 350
  | some 1 => 800
  | some 2 => 1550
  | _ => 3050

/-- The age at which a STALE entry passes its EMPTY limit, from the table of R31. -/
def RosterEntry.emptyLimit (e : RosterEntry) : Nat :=
  match e.status.map (·.period.toNat) with
  | some 0 => 1000
  | some 1 => 2500
  | some 2 => 5000
  | _ => 10000

/-! ## What a change leaves behind -/

/-- A frame is pending in the transmit list, with some count of failed attempts (R12). -/
def State.Pends (f : Frame) (u : State) : Prop := ∃ n, (⟨f, n⟩ : TxFrame) ∈ u.mbi.list

/-- A frame was handed to the MBI: in ACTIVE it is pending; elsewhere it was not queued (R13). -/
def State.Handed (f : Frame) (u : State) : Prop := u.mbi.bus = .active → u.Pends f

/-- A STATUS with the values of `u` was handed to the MBI: in ACTIVE it is pending, or held because an older one is on the
line (R13, R93). -/
def State.StatusHanded (u : State) : Prop :=
  u.mbi.bus = .active →
    u.Pends (.status u.buildStatus)
      ∨ (u.mbi.onLine = some .status ∧ u.mbi.heldStatus = some u.buildStatus)

/-- A connection state has just been entered from another one: STATE_CHANGE is set, a STATUS handed over, the path NONE
outside CONNECTED and both switches open outside CLOSING and CONNECTED (R70, R73, R90). -/
def State.Entered (new : ConnState) (u : State) : Prop :=
  u.conn.state = new ∧ u.hasEvent .stateChange = true ∧ u.StatusHanded
    ∧ (new ≠ .connected → u.conn.path = .none)
    ∧ (new ≠ .closing → new ≠ .connected → u.switches = { chg := false, dsg := false })

/-- A claim has failed with hold-off (R50, R53 to R55, R60, R62): its outcome is recorded, the hold-off runs at its length,
CLAIM_ABANDONED is set and the station is back in ISOLATED. -/
def State.ClaimFailed (o : ClaimOutcome) (u : State) : Prop :=
  u.closure.claim = none ∧ u.closure.lastOutcome = o ∧ u.closure.holdOff = some (100 + 20 * u.ownId.toNat)
    ∧ u.hasEvent .claimAbandoned = true ∧ u.Entered .isolated

/-- The station has tripped: TRIPPED, or LOCKOUT; both switches open and no claim in progress (R139). -/
def State.HasTripped (u : State) : Prop :=
  (u.conn.state = .tripped ∨ u.conn.state = .lockout)
    ∧ u.switches = { chg := false, dsg := false } ∧ u.closure.claim = none ∧ u.hasEvent .tripTaken = true

/-- The postponed action of a source that was HELD in `s` has been taken in `u`, and it was a trip (R132, R138, R139): the
source is ACTIVE with its condition and value as they were, and the trip stands in the history with that value. -/
def State.TripsPostponed (src : Source) (s u : State) : Prop :=
  u.fault.register.get src = { s.fault.register.get src with state := .active } ∧ u.HasTripped
    ∧ u.conn.sleepPending = false
    ∧ ∃ r ∈ u.fault.history, r.code = .of src ∧ r.source = src ∧ r.scope = .localOnly
      ∧ r.value = (s.fault.register.get src).value.getD 0

/-- The removal of the closing hold releases postponed action of an over-current source: the closing hold is set, the source
is HELD, and the port does not hold it (R128, R132, R134). -/
def State.WaitsForClosingHold (src : Source) (s : State) : Prop :=
  (src = .ocDsg ∨ src = .ocChg) ∧ s.fault.closingHold = true ∧ (s.fault.register.get src).state = .held
    ∧ s.fault.portHolds.getLsbD (src.code - 1) = false

/-- The number of a fault code (R192). -/
def FaultCode.number : FaultCode → Nat
  | .of .short => 1 | .of .tempTrip => 2 | .of .busOv => 3 | .of .dupId => 4 | .of .ocDsg => 5 | .of .ocChg => 6
  | .of .modOv => 7 | .of .modUv => 8 | .of .busSilent => 9 | .of .rxDegraded => 10 | .pathConflict => 11

/-- The accumulator as a trip record keeps it: 0 while the level is invalid (R108, R144). -/
def State.snapshot (s : State) : Nat := if s.charge.levelValid then s.charge.accAs else 0

/-- A trip record tells a trip (R138, R144): the description, the connection state before it, the trip number unless the
counter has saturated, and the accumulator. -/
def TripRecord.Tells (d : TripCause) (before : ConnState) (number accumulator : Nat) (r : TripRecord) : Prop :=
  r.code = d.code ∧ r.source = d.source ∧ r.scope = d.scope ∧ r.value = d.value ∧ r.connState = before
    ∧ r.accumulator = accumulator ∧ (number ≤ 65535 → r.number.toNat = number)

/-- The trip that an armed or repeated onset of a source is, with its description (R127, R130, R138). -/
def Source.cause (src : Source) (value : Half) (reported : Scope) : TripCause :=
  { code := .of src, source := src, scope := if src = .busOv then .bus else if src = .short then reported else .localOnly,
    value := value, classA := decide (src = .short ∨ src = .tempTrip ∨ src = .busOv ∨ src = .dupId),
    toLockout := decide (src = .dupId) }

/-- The description of a SHORT's trip: the bus voltage of the latest sample as its value, and scope BUS where that lies below
the dead-bus level (R118, R124, R138). -/
def State.shortCause (s : State) : TripCause :=
  Source.short.cause ((s.meas.sample.map (·.vbus)).getD 0) (match s.meas.sample with
    | some x => if x.vbus.toNat < 5 * fieldNat s.config.deadBus then .bus else .localOnly
    | none => .localOnly)

/-- The description of the postponed trip of an over-current source that is HELD in `s` (R127, R132, R138). -/
def State.heldCause (oc : Source) (s : State) : TripCause :=
  { code := .of oc, source := oc, scope := .localOnly, value := (s.fault.register.get oc).value.getD 0, classA := false,
    toLockout := false }

/-- A trip with a description has been taken in `s` and has led to `u` (R87, R138 to R144, R148): the state after it, the
lockout window, the claim, the bus-wide trip of the originator, the count and the record. Trips of the removal of the
closing hold may have followed it, in CLOSING and with a source that waits for it alone; with none the TRIP frame carries
this trip. -/
def State.TakesTrip (d : TripCause) (s u : State) : Prop :=
  u.HasTripped
  ∧ u.conn.state = (if d.toLockout = true ∨ d.classA = true ∧ s.fault.lockout.isSome = true ∨ s.conn.state = .lockout
      then .lockout else .tripped)
  ∧ u.fault.lockout = (if d.classA then some 10000 else s.fault.lockout)
  ∧ (s.closure.claim.isSome = true → u.closure.lastOutcome = .tripped)
  ∧ (d.scope = .bus → u.closure.record = none ∧ u.closure.quiet = some 1000)
  ∧ (∃ earlier r later, earlier <:+ s.fault.history ∧ u.fault.history = earlier ++ r :: later
      ∧ r.Tells d s.conn.state (s.fault.tripCounter + 1) s.snapshot
      ∧ u.fault.tripCounter = min 65535 (s.fault.tripCounter + 1 + later.length)
      ∧ (later = [] ∨ s.conn.state = .closing ∧ ∃ oc, s.WaitsForClosingHold oc))
  ∧ (s.mbi.bus = .active → s.mbi.onLine ≠ some .trip → hasKind .trip s.mbi.list = false →
      (s.conn.state = .closing → ∀ oc, ¬ s.WaitsForClosingHold oc) →
      u.Pends (.trip ⟨BitVec.ofNat 8 d.code.number, if d.scope = .bus then 1 else 0, d.value⟩))

/-- What a trip taken in CLOSING adds to the trip procedure: the removal of the closing hold, with a trip of its own for each
over-current source that waited for it, OC_DSG before OC_CHG (R87, R132, R134, R142). -/
def State.TripLiftsClosingHold (d : TripCause) (s u : State) : Prop :=
  u.fault.closingHold = false
  ∧ ((∀ oc, ¬ s.WaitsForClosingHold oc) →
      u = { s.tripCore d with fault := { (s.tripCore d).fault with closingHold := false } })
  ∧ (∀ oc, s.WaitsForClosingHold oc → s.TripsPostponed oc u)
  ∧ (∀ other, ¬ s.WaitsForClosingHold other → u.fault.register.get other = s.fault.register.get other)
  ∧ (∀ oc other, (oc = .ocDsg ∧ other = .ocChg ∨ oc = .ocChg ∧ other = .ocDsg) → s.WaitsForClosingHold oc →
      ¬ s.WaitsForClosingHold other →
      u.fault.tripCounter = min 65535 (s.fault.tripCounter + 2)
        ∧ ∃ earlier first second, earlier <:+ s.fault.history ∧ u.fault.history = earlier ++ [first, second]
          ∧ first.Tells d .closing (s.fault.tripCounter + 1) s.snapshot
          ∧ second.Tells (s.heldCause oc) u.conn.state (s.fault.tripCounter + 2) s.snapshot)
  ∧ (s.WaitsForClosingHold .ocDsg → s.WaitsForClosingHold .ocChg →
      u.fault.tripCounter = min 65535 (s.fault.tripCounter + 3)
        ∧ ∃ earlier first second third, earlier <:+ s.fault.history
          ∧ u.fault.history = earlier ++ [first, second, third]
          ∧ first.Tells d .closing (s.fault.tripCounter + 1) s.snapshot
          ∧ second.Tells (s.heldCause .ocDsg) u.conn.state (s.fault.tripCounter + 2) s.snapshot
          ∧ third.Tells (s.heldCause .ocChg) u.conn.state (s.fault.tripCounter + 3) s.snapshot)

/-- The TRIP frame that is pending after a trip in CLOSING behind which over-current sources have tripped too: with no other
TRIP pending or on the line it carries the last one's code and value, and scope BUS if the first trip has it (R13, R139). -/
def State.TripFrameTellsLast (d : TripCause) (s u : State) : Prop :=
  ∀ oc, s.WaitsForClosingHold oc → (oc = .ocDsg → ¬ s.WaitsForClosingHold .ocChg) → s.mbi.bus = .active →
    s.mbi.onLine ≠ some .trip → hasKind .trip s.mbi.list = false →
    u.Pends (.trip ⟨BitVec.ofNat 8 (FaultCode.of oc).number, if d.scope = .bus then 1 else 0,
      (s.heldCause oc).value⟩)

/-- Nothing has changed between two states but what a claim and a connection state own: transmit list, record, claim,
hold-off, the connection state with its path and timers, the switches, the closing hold and events. -/
def TouchesConnectionOnly (s u : State) : Prop :=
  u = { s with
    mbi := { s.mbi with list := u.mbi.list, heldStatus := u.mbi.heldStatus, withdrawal := u.mbi.withdrawal }
    closure := { u.closure with claimNumber := s.closure.claimNumber, quiet := s.closure.quiet }
    conn := { u.conn with
      joined := s.conn.joined, sleepPending := s.conn.sleepPending, statusTimer := s.conn.statusTimer }
    switches := u.switches
    fault := { s.fault with closingHold := u.fault.closingHold }
    port := { s.port with events := u.port.events } }

/-- Nothing has changed between two states but the transmit list, the closure engine, the connection, the switches, the
fault unit, the detectors and events: identity, configuration, line and error counts, Roster, sample, charge account,
power and the rest of the port are as before. -/
def KeepsSurroundings (s u : State) : Prop :=
  u = { s with
    mbi := { s.mbi with
      list := u.mbi.list, heldStatus := u.mbi.heldStatus, heldTrip := u.mbi.heldTrip, withdrawal := u.mbi.withdrawal }
    closure := { u.closure with claimNumber := s.closure.claimNumber }
    conn := { u.conn with joined := s.conn.joined, statusTimer := s.conn.statusTimer }
    switches := u.switches
    det := u.det
    fault := { u.fault with portHolds := s.fault.portHolds }
    port := { s.port with events := u.port.events } }

/-- The outcome of the closure window test on a sample `x`, from the state `s` to `u` (R44, R54, R77): on a dead bus or
inside the window the station enters CLOSING with the closing hold set, the settle timer started and the switches by the
path sources, and its record stands; otherwise it abandons the claim with reason WINDOW. -/
def ClosesOrAbandons (x : Sample) (s u : State) : Prop :=
  TouchesConnectionOnly s u
  ∧ if x.vbus.toNat < 5 * fieldNat s.config.deadBus
        ∨ ((x.vmod.toNat : Int) - x.vbus.toNat).natAbs ≤ 5 * fieldNat s.config.window then
      u.Entered .closing ∧ u.closure = { s.closure with claim := none, lastOutcome := .succeeded }
        ∧ u.fault = { s.fault with closingHold := true }
        ∧ u.conn.settle = some (settleMs (fieldNat s.config.settleCode))
        ∧ u.switches.chg = decide (s.fault.register.modOv.state ≠ .active)
        ∧ u.switches.dsg = decide (s.fault.register.modUv.state ≠ .active)
    else
      u.ClaimFailed .window ∧ u.Handed (.abandon ⟨s.closure.claimNumber, 3⟩) ∧ u.fault = s.fault
        ∧ (∀ r, s.closure.record = some r → r.holder = s.ownId → u.closure.record = none)

/-! ## The layouts of the responses (R195)

Written from the tables of R195 with plain numbers, apart from the functions of the meanings. The order of the bytes of a
four-byte field is the model's choice (log entry 40). -/

/-- A byte from fields, each given with the position of its lowest bit; other bits are 0. -/
def packed (fields : List (Nat × Nat)) : Byte := BitVec.ofNat 8 (fields.map fun f => f.1 * 2 ^ f.2).sum

/-- Two bytes of a number, most significant first (R194). -/
def twoBytes (n : Nat) : List Byte := [BitVec.ofNat 8 (n / 256), BitVec.ofNat 8 n]

/-- Four bytes of a number, most significant first (log entry 40). -/
def fourBytes (n : Nat) : List Byte :=
  [BitVec.ofNat 8 (n / 16777216), BitVec.ofNat 8 (n / 65536), BitVec.ofNat 8 (n / 256), BitVec.ofNat 8 n]

/-- The number of a connection state (R192). -/
def ConnState.number : ConnState → Nat
  | .detached => 0 | .isolated => 1 | .claiming => 2 | .closing => 3
  | .connected => 4 | .releasing => 5 | .tripped => 6 | .lockout => 7

/-- The number of a path (R192). -/
def Path.number : Path → Nat
  | .none => 0 | .both => 1 | .dischargeOnly => 2 | .chargeOnly => 3

/-- The number of a bus-interface state, and while the MBI is OFF, of the one it will leave OFF for (R182, R195). -/
def State.busNumber (s : State) : Nat :=
  match s.mbi.bus with
  | .listen => 1 | .active => 2 | .silent => 3
  | .off => if s.mbi.permanentSilence then 3 else if s.committed then 2 else 1

/-- The number of a self-check state (R195). -/
def CheckState.number : CheckState → Nat
  | .notRun => 0 | .running => 1 | .passed => 2 | .failed => 3

/-- The number of a wake source (R195). -/
def WakeSource.number : WakeSource → Nat
  | .none => 0 | .line => 1 | .current => 2 | .port => 3

/-- The number of a source state (R195). -/
def SourceState.number : SourceState → Nat
  | .clear => 0 | .active => 1 | .held => 2 | .lapsed => 3

/-- The level in half-percent, or 255 (R103). -/
def State.levelNumber (s : State) : Nat :=
  if s.charge.levelValid then s.charge.accAs * 200 / (360 * fieldNat s.config.capacity) else 255

/-- STATUS_READ (R195). -/
def State.statusLayout (s : State) : List Byte :=
  [ packed [(s.conn.state.number, 5), (s.conn.path.number, 3), (s.conn.joined.toNat, 2), (s.conn.sleepPending.toNat, 1),
      (s.conn.restarted.toNat, 0)],
    packed [(s.committed.toNat, 7), (s.busNumber, 5), (s.mbi.rejectMuted.toNat, 4), (s.mbi.permanentSilence.toNat, 3),
      (s.switches.chg.toNat, 2), (s.switches.dsg.toNat, 1), (s.power.checkFlag.toNat, 0)],
    BitVec.ofNat 8 s.mbi.tec,
    BitVec.ofNat 8 s.mbi.recCount,
    packed [(s.power.check.number, 6), (s.power.checkResult.converter.toNat, 5), (s.power.checkResult.gates.toNat, 4),
      (s.power.checkResult.store.toNat, 3), (s.power.latch.number, 1),
      ((Source.all.any fun src => decide ((s.fault.register.get src).state = .held
        ∨ (s.fault.register.get src).state = .lapsed)).toNat, 0)],
    packed [(s.charge.levelValid.toNat, 7)],
    BitVec.ofNat 8 s.levelNumber ]
  ++ twoBytes s.port.events.toNat ++ twoBytes s.port.enables.toNat

/-- SAMPLE_READ (R195). -/
def State.sampleLayout (s : State) : List Byte :=
  match s.meas.sample with
  | none => List.replicate 12 0
  | some x =>
    [1] ++ twoBytes x.vmod.toNat ++ twoBytes x.vbus.toNat ++ twoBytes x.current.toNat ++ [x.temp]
      ++ fourBytes x.cycle.toNat

/-- An entry in ROSTER_READ (R195). -/
def RosterEntry.layout (e : RosterEntry) : List Byte :=
  [ match e.state with | .present => 1 | .stale => 2 | .asleep => 3,
    packed [(e.announced.isSome.toNat, 7), (e.lastClaim.isSome.toNat, 6), (e.status.isSome.toNat, 5),
      ((e.status.bind (·.level)).isSome.toNat, 4), (e.trippedLocal.toNat, 3)],
    BitVec.ofNat 8 ((e.announced.map (·.number)).getD 0),
    e.lastClaim.getD 0 ]
  ++ twoBytes e.age
  ++ match e.status with
    | none => List.replicate 8 0
    | some p =>
      twoBytes p.voltage.toNat ++ twoBytes p.current.toNat
        ++ [p.level.getD 0, p.temperature, packed [(p.path.number, 3), (p.period.toNat, 1)], p.flags]

/-- ROSTER_READ (R36, R195): fourteen bytes of 0 for an EMPTY entry and for the own id. -/
def State.rosterLayout (id : StationId) (s : State) : List Byte :=
  if id = s.ownId then List.replicate 14 0
  else match rosterGet id s.roster with
    | none => List.replicate 14 0
    | some e => e.layout

/-- A group of FAULT_READ (R195). -/
def SourceRecord.layout (x : SourceRecord) : List Byte :=
  [packed [(x.state.number, 6), (x.present.toNat, 5), (x.value.isSome.toNat, 4)]] ++ twoBytes (x.value.getD 0).toNat

/-- FAULT_READ (R195). -/
def State.faultLayout (s : State) : List Byte :=
  let r := s.fault.register
  r.short.layout ++ r.tempTrip.layout ++ r.busOv.layout ++ r.dupId.layout ++ r.ocDsg.layout ++ r.ocChg.layout
    ++ r.modOv.layout ++ r.modUv.layout ++ r.busSilent.layout ++ r.rxDegraded.layout
    ++ twoBytes s.fault.portHolds.toNat ++ [packed [(s.fault.closingHold.toNat, 0)]]
    ++ twoBytes (s.fault.lockout.getD 0)

/-- A slot of HISTORY_READ (R195); one beyond the count is 0. -/
def historySlot : Option TripRecord → List Byte
  | none => List.replicate 11 0
  | some r =>
    twoBytes r.number.toNat
      ++ [BitVec.ofNat 8 r.code.number, BitVec.ofNat 8 (FaultCode.of r.source).number,
          packed [((decide (r.scope = .bus)).toNat, 7), (r.connState.number, 0)]]
      ++ twoBytes r.value.toNat ++ fourBytes r.accumulator

/-- HISTORY_READ (R195). -/
def State.historyLayout (s : State) : List Byte :=
  let h := s.fault.history
  twoBytes s.fault.tripCounter ++ [BitVec.ofNat 8 h.length]
    ++ historySlot h[0]? ++ historySlot h[1]? ++ historySlot h[2]? ++ historySlot h[3]?

/-- COUNTERS_READ (R195). -/
def State.countersLayout (s : State) : List Byte :=
  fourBytes s.charge.inAs ++ fourBytes s.charge.outAs ++ fourBytes s.charge.accAs
    ++ [BitVec.ofNat 8 s.levelNumber, packed [(s.charge.levelValid.toNat, 0), (s.meas.sample.isSome.toNat, 1)]]
    ++ twoBytes s.charge.rest ++ fourBytes ((s.meas.sample.map (·.cycle.toNat)).getD 0)

/-- The awaited ids and the time left of a claim in progress: none and 0 while QUEUED (R195). -/
def Claim.waiting (c : Claim) : List StationId × Nat :=
  match c.phase with
  | .queued => ([], 0)
  | .awaiting ids timer => (ids, timer)

/-- The last outcome's three bytes of CLOSURE_READ (R195). -/
def ClaimOutcome.layout : ClaimOutcome → List Byte
  | .none => [0, 0, 0] | .succeeded => [1, 0, 0]
  | .objected peer .busy => [2, peer.setWidth 8, 1]
  | .objected peer .quiet => [2, peer.setWidth 8, 2]
  | .objected peer .window => [2, peer.setWidth 8, 3]
  | .noAnswer => [3, 0, 0] | .window => [4, 0, 0] | .yielded => [5, 0, 0] | .dropped => [6, 0, 0]
  | .silent => [7, 0, 0] | .leave => [8, 0, 0] | .tripped => [9, 0, 0] | .busTrip => [10, 0, 0]

/-- CLOSURE_READ (R195). -/
def State.closureLayout (s : State) : List Byte :=
  let c := s.closure
  let ids := ((c.claim.map Claim.waiting).getD ([], 0)).1
  let timer := ((c.claim.map Claim.waiting).getD ([], 0)).2
  let awaiting := match c.claim with
    | some ⟨_, .awaiting _ _⟩ => true
    | _ => false
  [packed [(c.record.isSome.toNat, 7), ((decide ((c.record.map ClosureRecord.holder) = some s.ownId)).toNat, 6),
      (c.claim.isSome.toNat, 5), (awaiting.toNat, 4)],
    ((c.record.map ClosureRecord.holder).getD 0).setWidth 8, (c.record.map ClosureRecord.number).getD 0]
    ++ twoBytes ((c.record.bind (·.expiry)).getD 0)
    ++ [c.claimNumber] ++ twoBytes ((c.claim.map (·.voltage.toNat)).getD 0)
    ++ [BitVec.ofNat 8 ids.length] ++ (List.range 15).map (fun n => ((ids[n]?).getD 0).setWidth 8)
    ++ [BitVec.ofNat 8 timer] ++ c.lastOutcome.layout
    ++ twoBytes (c.holdOff.getD 0) ++ twoBytes (c.quiet.getD 0)

/-! ## The configuration record as a list -/

/-- The 22 fields in the order of their numbers (R166). -/
def ConfigRecord.fields (c : ConfigRecord) : List (Option Half) :=
  [c.capacity, c.window, c.deadBus, c.busOvLimit, c.ovTrip, c.ovRelease, c.uvTrip, c.uvRelease, c.ocDsgLimit,
    c.ocChgLimit, c.ocDetect, c.shortCode, c.tempTrip, c.tempRelease, c.claimTimeout, c.settleCode, c.statusPeriod,
    c.emptyVoltage, c.fullVoltage, c.restCurrent, c.wakeCurrent, c.initialLevel]

/-! ## The reports of a sample (R114, R124) -/

/-- The reports of a sample reach the Fault Unit one after the other: every clearance first and then every onset, each in
the order of R114 and with the measured value of R124. `old` and `new` are the detectors before and after the sample. -/
def reportSample (x : Sample) (old new : Detectors) (s : State) : State :=
  let conditions : List (Source × Bool × Bool × Half) :=
    [(.tempTrip, old.tempTrip, new.tempTrip, x.temp.signExtend 16), (.busOv, old.busOv, new.busOv, x.vbus),
      (.ocDsg, old.ocDsg, new.ocDsg, x.current), (.ocChg, old.ocChg, new.ocChg, x.current),
      (.modOv, old.modOv, new.modOv, x.vmod), (.modUv, old.modUv, new.modUv, x.vmod)]
  let cleared := conditions.foldl (fun u c => if c.2.1 = true ∧ c.2.2.1 = false then u.takeClearance c.1 else u) s
  conditions.foldl
    (fun u c => if c.2.1 = false ∧ c.2.2.1 = true then u.takeOnset c.1 c.2.2.2 .localOnly else u) cleared

/-! ## Invariants -/

/-- A switch is commanded closed only in CLOSING or CONNECTED (R90). -/
def State.SwitchesSafe (s : State) : Prop :=
  s.switches.chg = true ∨ s.switches.dsg = true → s.conn.state = .closing ∨ s.conn.state = .connected

/-- The path is NONE in every state other than CONNECTED (R70). -/
def State.PathSafe (s : State) : Prop := s.conn.state ≠ .connected → s.conn.path = .none

/-- No class A source is HELD or LAPSED (R128). -/
def State.ClassASafe (s : State) : Prop :=
  ∀ src : Source, src.classB = false →
    (s.fault.register.get src).state ≠ .held ∧ (s.fault.register.get src).state ≠ .lapsed

/-- Each record's trip number is one above the one before it (R144). -/
def consecutiveTrips : List TripRecord → Prop
  | a :: b :: rest => b.number = a.number + 1 ∧ consecutiveTrips (b :: rest)
  | _ => True

/-- The trip history holds at most 4 records with consecutive numbers, and the newest number is the trip counter unless
the counter has saturated (R143, R144). -/
def State.HistorySound (s : State) : Prop :=
  s.fault.history.length ≤ 4 ∧ s.fault.tripCounter ≤ 65535 ∧ consecutiveTrips s.fault.history
    ∧ (s.fault.tripCounter < 65535 →
        ∀ r, s.fault.history.getLast? = some r → r.number.toNat = s.fault.tripCounter)

/-- TEC and REC lie from 0 to 255 and the good-frame count from 0 to 16 (R15 to R17). -/
def State.CountsBounded (s : State) : Prop :=
  s.mbi.tec ≤ 255 ∧ s.mbi.recCount ≤ 255 ∧ s.mbi.goodCount ≤ 16

/-- The charge account keeps its ranges (R100 to R102, R105): while the level is valid the accumulator lies from 0 to the
capacity, and while it is invalid it is 0. An initial level written for a commit to come lies in its range (R166). -/
def State.ChargeBounded (s : State) : Prop :=
  s.charge.inAs ≤ 4294967295 ∧ s.charge.inRem < 25000 ∧ s.charge.outAs ≤ 4294967295 ∧ s.charge.outRem < 25000
    ∧ s.charge.accRem < 25000 ∧ s.charge.rest ≤ 30000
    ∧ (s.charge.levelValid = true → s.committed = true ∧ s.charge.accAs ≤ s.config.capacityAs)
    ∧ (s.charge.levelValid = false → s.charge.accAs = 0 ∧ s.charge.accRem = 0)
    ∧ (∀ v, s.config.initialLevel = some v → v.toNat ≤ 200)

/-- The Roster holds no entry for the own id (R22), and none while a pin reset, which may change the own id, lasts
(R37, R165). -/
def State.RosterSafe (s : State) : Prop :=
  rosterGet s.ownId s.roster = none ∧ (s.power.phase = .pinReset → s.roster = [])

/-- The MBI is OFF outside RUN (R19, R20). -/
def State.OffOutsideRun (s : State) : Prop := s.power.phase ≠ .run → s.mbi.bus = .off

end Sys2Proof.Machine
end

