-- ==== Sys2Proof/Certificates/Slice0/Obligations.lean ====
section
/-! DEFINITION. The statements for the provers, from the numbered rules of spec/. A command's statement says what the command answers, for every state and operands that meet hypotheses on the state and the operands alone. -/

open Sys2Proof Sys2Proof.Machine

/-! ## The step and the queue -/

/-- A step takes the command at the front of the queue and runs it on the queue's rest (log entry 1). -/
def Obligations.StepTakesTheFrontCommand : Prop :=
  ∀ (c : Instr) (rest : List Instr) (s : State),
    s.pending = c :: rest → step s = exec c { s with pending := rest }

/-- With no command waiting, a step takes one of the commands that have come due, in a free order, and lets 1 ms pass when
none has. What that millisecond does (R31, R41, R62, R63, R78, R86, R92, R95, R125, R140, R157, R158): in RUN every
running timer falls by 1, PRESENT and STALE entries age by 1 unless the MBI is OFF, and the cycle timer rises by 1; but the
part stands still while the inputs of a sample or the outcome of a self-check are due. In SLEEP the run timer of each
armed wake detector rises to its length, or is 0 where its input, a free level, was not active, and a run timer at its
length makes the detector's report due. In the wake pulse its own time falls by 1; without VKA the supply returns or stays
absent, a free choice; in a reset and in the power-up nothing moves.
What comes due: in RUN at once, the failure of a collided attempt (R5), the entry into SLEEP (R153), the end of SILENT at 16
good frames (R16); with none of them, exactly the rows of the timers that stand at 0 and of the roster entries at their limit
(R31, R32); in the wake pulse its end; in SLEEP the two reports; elsewhere nothing. All of this is the model's own convention:
log entries 1, 2, 6, 14, 38, 39 and 41. -/
def Obligations.IdleStepTakesADueCommandOrPasses : Prop :=
  ∀ s : State,
    (s.pending = [] →
      (s.candidates = [] → step s = .next s.passTime)
        ∧ (s.candidates ≠ [] → ∃ d, d ∈ s.candidates ∧ step s = exec d { s with choices := s.choices + 1 }))
    ∧ (s.power.phase = .run → s.meas.cycleTimer ≠ some 4 → s.power.checkTimer ≠ some 0 →
        s.passTime = { s with
          mbi := { s.mbi with silenceTimer := s.mbi.silenceTimer.map (· - 1) }
          roster := if s.mbi.bus = .off then s.roster else s.roster.map fun x =>
            if x.entry.state = .asleep then x else { x with entry := { x.entry with age := x.entry.age + 1 } }
          closure := { s.closure with
            record := s.closure.record.map fun r => { r with expiry := r.expiry.map (· - 1) }
            claim := s.closure.claim.map fun c => match c with
              | ⟨v, .awaiting ids timer⟩ => ⟨v, .awaiting ids (timer - 1)⟩
              | ⟨v, .queued⟩ => ⟨v, .queued⟩
            holdOff := s.closure.holdOff.map (· - 1)
            quiet := s.closure.quiet.map (· - 1) }
          conn := { s.conn with
            settle := s.conn.settle.map (· - 1)
            release := s.conn.release.map (· - 1)
            statusTimer := s.conn.statusTimer.map (· - 1) }
          meas := { s.meas with cycleTimer := s.meas.cycleTimer.map (· + 1) }
          fault := { s.fault with lockout := s.fault.lockout.map (· - 1) }
          power := { s.power with checkTimer := s.power.checkTimer.map (· - 1) } })
    ∧ (s.power.phase = .run → s.meas.cycleTimer = some 4 ∨ s.power.checkTimer = some 0 → s.passTime = s)
    ∧ (s.power.phase = .sleep →
        (∃ (low : Bool) (current : Nat), s.passTime = { s with
          choices := s.choices + 1
          pins := { mwkLow := low, current := current }
          power := { s.power with
            wakeLineRun := if s.power.wakeLineArmed then if low then 1 else 0 else s.power.wakeLineRun }
          det := { s.det with
            wakeCurrentRun := if s.det.wakeCurrentArmed then
                if fieldNat s.config.wakeCurrent < current then min 8 (s.det.wakeCurrentRun + 1) else 0
              else s.det.wakeCurrentRun } })
        ∧ (Instr.wakeLine ∈ s.candidates ↔ s.power.wakeLineArmed = true ∧ 1 ≤ s.power.wakeLineRun)
        ∧ (∀ current : Nat, Instr.currentWake current ∈ s.candidates ↔ s.det.wakeCurrentArmed = true
            ∧ 8 ≤ s.det.wakeCurrentRun ∧ fieldNat s.config.wakeCurrent < current ∧ current = s.pins.current)
        ∧ (∀ c ∈ s.candidates, c = .wakeLine ∨ ∃ current, c = .currentWake current))
    ∧ (s.power.phase = .wakePulse →
        s.candidates = (if s.power.pulseTimer = some 0 then [.wakePulseEnd] else [])
          ∧ s.passTime = { s with power := { s.power with pulseTimer := s.power.pulseTimer.map (· - 1) } })
    ∧ (s.power.phase = .unpowered →
        s.candidates = [] ∧ ∃ phase, (phase = .unpowered ∨ phase = .powerOnReset)
          ∧ s.passTime = { s with choices := s.choices + 1, power := { s.power with phase := phase } })
    ∧ (s.power.phase = .powerOnReset ∨ s.power.phase = .pinReset ∨ s.power.phase = .serviceReset
        ∨ s.power.phase = .powerUp → s.candidates = [] ∧ s.passTime = s)
    ∧ (s.power.phase = .run →
        ((∃ k, s.mbi.tx = .collided k) → ∃ race, s.candidates = [.txAttemptFailed race])
        ∧ ((∀ k, s.mbi.tx ≠ .collided k) → s.SleepStands → s.candidates = [.sleepEntry])
        ∧ ((∀ k, s.mbi.tx ≠ .collided k) → ¬ s.SleepStands → s.SilenceServed → s.candidates = [.silentExitCount])
        ∧ ((∀ k, s.mbi.tx ≠ .collided k) → ¬ s.SleepStands → ¬ s.SilenceServed →
          ∀ c : Instr, c ∈ s.candidates ↔
            (c = .recordExpiry ∧ ∃ r, s.closure.record = some r ∧ r.expiry = some 0)
            ∨ (c = .claimTimerExpiry ∧ ∃ v ids, s.closure.claim = some ⟨v, .awaiting ids 0⟩)
            ∨ (c = .holdOffExpiry ∧ s.closure.holdOff = some 0)
            ∨ (c = .quietPeriodExpiry ∧ s.closure.quiet = some 0)
            ∨ (c = .settleEnd ∧ s.conn.settle = some 0)
            ∨ (c = .releaseTimerExpiry ∧ s.conn.release = some 0)
            ∨ (c = .statusTimerExpiry ∧ s.conn.statusTimer = some 0)
            ∨ (c = .lockoutWindowExpiry ∧ s.fault.lockout = some 0)
            ∨ (c = .silenceTimerExpiry ∧ s.mbi.silenceTimer = some 0)
            ∨ ∃ x ∈ s.roster,
              (c = .rosterStaleLimit x.id ∧ x.entry.state = .present ∧ x.entry.staleLimit ≤ x.entry.age)
              ∨ (c = .rosterEmptyLimit x.id ∧ x.entry.state = .stale ∧ x.entry.emptyLimit ≤ x.entry.age)))

/-- No command and no step ends in a fault or a refusal, from any state, and no command touches the queue or the counter of
free choices. Both are the model's own: that nothing stops the part for good is log entry 34 (DEDUCED), that an event
which cannot occur where the part stands changes nothing is log entry 4 (DESIGN CHOICE), and the queue and the counter are
log entries 1 and 2 (DESIGN CHOICE). -/
def Obligations.EveryCommandAnswers : Prop :=
  (∀ (c : Instr) (s : State), ∃ t, exec c s = .next t ∧ t.pending = s.pending ∧ t.choices = s.choices)
    ∧ ∀ s : State, ∃ t, step s = .next t

/-! ## Frames and port bytes -/

/-- A frame as its transmitter sends it is good at every receiver, and is read as the command of its kind with its
source and every field; with the slot dominant it is the rejected frame. -/
def Obligations.FramesDecodeToWhatWasSent : Prop :=
  ∀ (src : StationId) (f : Frame),
    (f.encode src).wf = true ∧ (f.encode src).faulty = false
      ∧ (f.encode src).toCommand false = f.received src
      ∧ (f.encode src).toCommand true = .frameRejected (f.encode src)

/-- Every well-formed command of the service port is read back from the bytes that spell it, with every argument;
CONFIG_COMMIT with the current that its arming sees. -/
def Obligations.PortBytesDecodeToTheCommand : Prop :=
  ∀ (c : Instr) (bytes : List Byte) (current : Nat), c.wf = true → encodePort c = some bytes →
    decodePort current bytes = some (match c with | .configCommit _ => .configCommit current | _ => c)

/-- The worked check bytes of Frame and Record Layouts: the register after each byte of the RELEASE of station 5 and of the
ASSENT of station 5 to station 9 for claim 14 (R193). And in arbitration the station with the higher rank byte loses, the
one with the lower does not (R4). -/
def Obligations.CheckBytesAndArbitration : Prop :=
  (checkTake 0xFF 0x85 = 0x61 ∧ checkByte [0x85, 0x00] = 0x20
      ∧ checkTake 0xFF 0x55 = 0x5F ∧ checkTake 0x5F 0x02 = 0x94 ∧ checkTake 0x94 0x09 = 0xDA
      ∧ checkTake 0xDA 0x0E = 0x22 ∧ checkByte [0x55, 0x02, 0x09, 0x0E] = 0x22
      ∧ (Frame.encode 5 .release) = ⟨0x85, 0, [], 0x20⟩
      ∧ (Frame.encode 5 (.assent ⟨9, 14⟩)) = ⟨0x55, 2, [0x09, 0x0E], 0x22⟩)
  ∧ (∀ own other : Byte, arbitrationLost own other = decide (other.toNat < own.toNat))

/-! ## Power-on, resets -/

/-- What the end of a power-on reset leaves (R172): the own id from the straps; LISTEN, waiting for idle; DETACHED with
the switches open and both gates at their off level (R91); the cycle timer started; the hold-off at its length; the restarted flag set; and every keep-alive
quantity at its initial value, the charge account with its remainders and the rest timer among them (R100, R110). That
the row may come while VKA is absent, its return within it, is log entry 41 (DESIGN CHOICE). -/
def Obligations.PowerOnStartUp : Prop :=
  ∀ (straps : StationId) (s : State), s.power.phase = .unpowered ∨ s.power.phase = .powerOnReset →
    ∃ t, exec (.powerOnResetEnd straps) s = .next t
      ∧ t.ownId = straps ∧ t.power.phase = .run ∧ t.power.check = .notRun ∧ t.power.checkFlag = false
      ∧ t.power.latch = .none
      ∧ t.mbi.bus = .listen ∧ t.mbi.line = .unsynced ∧ t.mbi.list = [] ∧ t.mbi.tec = 0 ∧ t.mbi.recCount = 0
      ∧ t.mbi.permanentSilence = false
      ∧ t.roster = [] ∧ t.closure.record = none ∧ t.closure.claim = none ∧ t.closure.claimNumber = 0
      ∧ t.closure.holdOff = some (100 + 20 * straps.toNat) ∧ t.closure.quiet = none
      ∧ t.conn.state = .detached ∧ t.conn.path = .none ∧ t.conn.joined = false ∧ t.conn.sleepPending = false
      ∧ t.conn.restarted = true ∧ t.conn.statusTimer = none
      ∧ t.switches = { chg := false, dsg := false } ∧ t.chgGate = .off ∧ t.dsgGate = .off
      ∧ t.meas.sample = none ∧ t.meas.cycleTimer = some 0
      ∧ t.committed = false ∧ t.config = ConfigRecord.unset
      ∧ t.charge = { inAs := 0, inRem := 0, outAs := 0, outRem := 0, accAs := 0, accRem := 0, levelValid := false,
                     rest := 0 }
      ∧ t.fault.tripCounter = 0 ∧ t.fault.history = [] ∧ t.fault.portHolds = 0 ∧ t.fault.register = FaultRegister.quiet
      ∧ t.det.shortArmed = false ∧ t.port.events = 0 ∧ t.port.enables = 0

/-- The loss of VKA opens both switches, takes the MBI OFF and loses everything, the keep-alive domain included, the own id,
the wake-source latch and the check flag too (R151, R171, R172, R190), in every state. That the fields stand at their
power-on values from the loss itself, the own id at 0, is the model's choice: log entry 31 (DESIGN CHOICE).
What the gate outputs carry (R90, R91): neither is driven while VKA is absent; both stand at their off level from the
entry into SLEEP to the main domain's power-up at wake; elsewhere, a reset included, each follows its commanded state. -/
def Obligations.LossOfKeepAliveSupply : Prop :=
  (∀ s : State, ∃ t, exec .vkaLoss s = .next t
    ∧ t.power.phase = .unpowered ∧ t.switches = { chg := false, dsg := false }
    ∧ t.mbi.bus = .off ∧ t.mbi.list = [] ∧ t.mbi.permanentSilence = false
    ∧ t.roster = [] ∧ t.closure.record = none ∧ t.closure.claim = none
    ∧ t.meas.sample = none ∧ t.meas.cycleTimer = none ∧ t.det.shortArmed = false
    ∧ t.committed = false ∧ t.config = ConfigRecord.unset ∧ t.conn.joined = false
    ∧ t.fault.register = FaultRegister.quiet ∧ t.fault.portHolds = 0 ∧ t.fault.history = [] ∧ t.fault.tripCounter = 0
    ∧ t.charge = { inAs := 0, inRem := 0, outAs := 0, outRem := 0, accAs := 0, accRem := 0, levelValid := false,
                   rest := 0 }
    ∧ t.power.checkFlag = false ∧ t.power.latch = .none ∧ t.ownId = 0 ∧ t.port.events = 0 ∧ t.port.enables = 0
    ∧ t.chgGate = .undriven ∧ t.dsgGate = .undriven)
  ∧ (∀ s : State,
      (s.power.phase = .unpowered → s.chgGate = .undriven ∧ s.dsgGate = .undriven)
      ∧ (s.power.phase = .sleep ∨ s.power.phase = .wakePulse ∨ s.power.phase = .powerUp →
          s.chgGate = .off ∧ s.dsgGate = .off)
      ∧ (s.power.phase = .run ∨ s.power.phase = .powerOnReset ∨ s.power.phase = .pinReset
            ∨ s.power.phase = .serviceReset →
          s.chgGate = (if s.switches.chg then .on else .off) ∧ s.dsgGate = (if s.switches.dsg then .on else .off)))

/-- A RESETN pulse taken by the filter (50 µs or longer, or the filter's choice from 20 µs) and a fall of VDD start a pin
reset wherever the part has its supply and is in no power-on or pin reset yet: both switches open, the MBI OFF with its list gone,
conversion stopped, the comparator disarmed, events and enables clear; the keep-alive quantities of R174 are kept, and
the joined flag, the holds, the lockout window, LOCKOUT and the mark are cleared (R171, R173, R174, R190).
A pulse shorter than 20 µs, or one below 50 µs that the filter does not take, has no effect; and within a power-on or a pin
reset the pulse and the fall of VDD are a part of that reset (R172, R173). That the self-check state is
NOT_RUN while the reset lasts is log entry 35 (DEDUCED), and that the fault register and the other lost fields stand at
their reset values from the reset's start is log entry 13 (DESIGN CHOICE). -/
def Obligations.PinResetStart : Prop :=
  (∀ (c : Instr) (s : State),
      (c = .vddLow ∨ ∃ width taken, c = .resetnLow width taken ∧ (50 ≤ width ∨ 20 ≤ width ∧ taken = true)) →
      s.power.phase ≠ .unpowered → s.power.phase ≠ .powerOnReset → s.power.phase ≠ .pinReset →
      ∃ t, exec c s = .next t
        ∧ t.power.phase = .pinReset ∧ t.power.latch = .none ∧ t.power.check = .notRun
        ∧ t.switches = { chg := false, dsg := false } ∧ t.chgGate = .off ∧ t.dsgGate = .off
        ∧ t.mbi.bus = .off ∧ t.mbi.list = [] ∧ t.mbi.tx = .none ∧ t.mbi.permanentSilence = false
        ∧ t.roster = [] ∧ t.closure.record = none ∧ t.closure.claim = none
        ∧ t.conn.state = .detached ∧ t.conn.path = .none ∧ t.conn.joined = false ∧ t.conn.sleepPending = false
        ∧ t.meas.sample = none ∧ t.meas.cycleTimer = none ∧ t.det.shortArmed = false
        ∧ t.fault.register = FaultRegister.quiet ∧ t.fault.portHolds = 0 ∧ t.fault.closingHold = false
        ∧ t.fault.lockout = none ∧ t.port.events = 0 ∧ t.port.enables = 0
        ∧ t.ownId = s.ownId ∧ t.config = s.config ∧ t.committed = s.committed ∧ t.charge = s.charge
        ∧ t.fault.tripCounter = s.fault.tripCounter ∧ t.fault.history = s.fault.history
        ∧ t.power.checkFlag = s.power.checkFlag)
  ∧ (∀ (width : Nat) (taken : Bool) (s : State), (width < 20 ∨ width < 50 ∧ taken = false) →
      exec (.resetnLow width taken) s = .next s)
  ∧ (∀ s : State, s.power.phase = .unpowered ∨ s.power.phase = .powerOnReset ∨ s.power.phase = .pinReset →
      exec .vddLow s = .next s ∧ ∀ (width : Nat) (taken : Bool), exec (.resetnLow width taken) s = .next s)

/-- The release of SSN ends the transaction; a SERVICE_RESET taken in it starts its reset there, which in addition to
what a pin reset keeps, the check flag among it (R161, R174), leaves the own id, the wake-source latch, the
permanent-silence mark, and a LOCKOUT state with its window (R175, R178). That the lost fields stand at their reset values
from the reset's start is log entry 13 (DESIGN CHOICE); that a release which makes a drained sleep due leaves the rest of
the state to the row SLEEP_ENTRY is log entry 6 (DESIGN CHOICE). -/
def Obligations.SelectReleaseAndServiceReset : Prop :=
  ∀ s : State,
    ((s.power.phase ≠ .run ∨ s.port.resetPending = false) →
      exec .ssnRelease s = .next { s with port := { s.port with line := .released } })
    ∧ (s.power.phase = .run → s.port.resetPending = true →
      ∃ t, exec .ssnRelease s = .next t
        ∧ t.power.phase = .serviceReset ∧ t.power.latch = s.power.latch
        ∧ t.switches = { chg := false, dsg := false }
        ∧ t.mbi.bus = .off ∧ t.mbi.list = [] ∧ t.mbi.permanentSilence = s.mbi.permanentSilence
        ∧ t.roster = [] ∧ t.closure.record = none
        ∧ t.conn.state = (if s.conn.state = .lockout then .lockout else .detached)
        ∧ t.fault.lockout = (if s.conn.state = .lockout then s.fault.lockout else none)
        ∧ t.conn.joined = false ∧ t.fault.portHolds = 0 ∧ t.fault.register = FaultRegister.quiet
        ∧ t.port.line = .released ∧ t.port.resetPending = false ∧ t.port.events = 0 ∧ t.port.enables = 0
        ∧ t.ownId = s.ownId ∧ t.config = s.config ∧ t.committed = s.committed ∧ t.charge = s.charge
        ∧ t.power.checkFlag = s.power.checkFlag
        ∧ t.fault.tripCounter = s.fault.tripCounter ∧ t.fault.history = s.fault.history)

/-- The end of a pin reset and of a service reset (R174, R175), first with no current beyond the short level.
With the permanent-silence mark clear the MBI is released to ACTIVE or LISTEN by the commit state and waits for idle; the
comparator is armed if committed; hold-off, and if committed the status timer, start; the restarted flag is set, or clear
in LOCKOUT; the self-check starts, which stops the conversion cycle; the charge account, trips and configuration are as
they were. A pin reset reads the straps, a service reset does not.
With the mark set, which only a service reset leaves, the MBI is released to SILENT with its timer and count standing
still, and the onset of BUS_SILENT is taken at that moment (R150): committed, the source CLEAR and not held, it trips
the station, in LOCKOUT if it was there; before the commit only the condition is noted.
With a current already beyond the short level a committed station's comparator reports SHORT at its arming (R119): the station
trips within the start-up, with its own description, record and count, and the rest of the start-up stands. With the mark set
the trip of BUS_SILENT comes first. That the SHORT is taken when the start-up's values stand is log entry 30 (DEDUCED). -/
def Obligations.ResetStartUp : Prop :=
  (∀ (c : Instr) (id : StationId) (current : Nat) (s : State),
      (c = .pinResetEnd id current ∧ s.power.phase = .pinReset
        ∨ c = .serviceResetEnd current ∧ s.power.phase = .serviceReset ∧ id = s.ownId) →
      s.mbi.permanentSilence = false →
      (s.committed = true → current ≤ shortOnsetLevel (fieldNat s.config.shortCode)) →
      ∃ t, exec c s = .next t
        ∧ t.ownId = id ∧ t.power.phase = .run ∧ t.power.check = .running ∧ t.power.checkTimer = some 10
        ∧ t.power.commitCheck = false
        ∧ t.mbi.bus = (if s.committed then .active else .listen) ∧ t.mbi.line = .unsynced
        ∧ t.closure.holdOff = some (100 + 20 * id.toNat)
        ∧ t.conn.statusTimer
            = (if s.committed then some (statusPeriodMs (fieldNat s.config.statusPeriod)) else s.conn.statusTimer)
        ∧ t.conn.state = s.conn.state ∧ t.conn.restarted = decide (s.conn.state ≠ .lockout)
        ∧ t.det.shortArmed = s.committed ∧ t.det.short = false ∧ t.meas.cycleTimer = none
        ∧ (s.committed = true → s.mbi.tx = .none → hasKind .status t.mbi.list = true)
        ∧ t.switches = s.switches ∧ t.fault = s.fault ∧ t.charge = s.charge
        ∧ t.config = s.config ∧ t.committed = s.committed ∧ t.roster = s.roster
        ∧ t.closure.record = s.closure.record)
  ∧ (∀ (current : Nat) (s : State), s.power.phase = .serviceReset → s.mbi.permanentSilence = true →
      (s.committed = true → current ≤ shortOnsetLevel (fieldNat s.config.shortCode)) →
      ∃ t, exec (.serviceResetEnd current) s = .next t
        ∧ t.ownId = s.ownId ∧ t.power.phase = .run ∧ t.power.check = .running ∧ t.power.checkTimer = some 10
        ∧ t.power.commitCheck = false
        ∧ t.mbi.bus = .silent ∧ t.mbi.permanentSilence = true ∧ t.mbi.line = .unsynced
        ∧ t.mbi.silenceTimer = s.mbi.silenceTimer ∧ t.mbi.goodCount = s.mbi.goodCount
        ∧ t.closure.holdOff = some (100 + 20 * s.ownId.toNat)
        ∧ t.conn.statusTimer
            = (if s.committed then some (statusPeriodMs (fieldNat s.config.statusPeriod)) else s.conn.statusTimer)
        ∧ t.det.shortArmed = s.committed ∧ t.det.short = false ∧ t.meas.cycleTimer = none
        ∧ t.fault.register.busSilent.present = true
        ∧ t.charge = s.charge ∧ t.config = s.config ∧ t.committed = s.committed ∧ t.roster = s.roster
        ∧ (s.conn.state = .lockout → t.conn.restarted = false)
        ∧ (s.committed = false →
            t.conn.state = s.conn.state ∧ t.switches = s.switches
              ∧ t.fault = { s.fault with register := { s.fault.register with
                  busSilent := { s.fault.register.busSilent with present := true } } })
        ∧ (s.committed = true → s.fault.register.busSilent.state = .clear → s.fault.portHolds.getLsbD 8 = false →
            t.fault.register.busSilent = ⟨.active, true, some (BitVec.ofNat 16 s.mbi.tec)⟩
              ∧ ({ s with mbi := { s.mbi with bus := .silent } } : State).TakesTrip
                  (Source.busSilent.cause (BitVec.ofNat 16 s.mbi.tec) .localOnly) t
              ∧ t.conn.state = (if s.conn.state = .lockout then .lockout else .tripped)
              ∧ (s.fault.tripCounter < 65535 → s.fault.tripCounter < t.fault.tripCounter)))
  ∧ (∀ (c : Instr) (id : StationId) (current : Nat) (s : State),
      (c = .pinResetEnd id current ∧ s.power.phase = .pinReset
        ∨ c = .serviceResetEnd current ∧ s.power.phase = .serviceReset ∧ id = s.ownId) →
      s.mbi.permanentSilence = false → s.committed = true →
      shortOnsetLevel (fieldNat s.config.shortCode) < current → s.fault.register.short.state ≠ .held →
      let ready : State := { s with mbi := { s.mbi with bus := .active } }
      ∃ u t, exec c s = .next t ∧ EndOfCommand s u t ∧ ready.TakesTrip s.shortCause u
        ∧ u.fault.register.short = ⟨.active, true, some ((s.meas.sample.map (·.vbus)).getD 0)⟩
        ∧ u.ownId = id ∧ u.power.phase = .run ∧ u.power.check = .running ∧ u.power.checkTimer = some 10
        ∧ u.power.commitCheck = false
        ∧ u.mbi.bus = .active ∧ u.mbi.line = .unsynced ∧ u.closure.holdOff = some (100 + 20 * id.toNat)
        ∧ u.conn.statusTimer = some (statusPeriodMs (fieldNat s.config.statusPeriod))
        ∧ (s.conn.state ≠ .tripped → u.conn.restarted = false)
        ∧ u.det.shortArmed = true ∧ u.det.short = true ∧ u.meas.cycleTimer = none
        ∧ (s.mbi.tx = .none → hasKind .status u.mbi.list = true)
        ∧ u.charge = s.charge ∧ u.config = s.config ∧ u.committed = s.committed ∧ u.roster = s.roster)
  ∧ (∀ (current : Nat) (s : State), s.power.phase = .serviceReset → s.mbi.permanentSilence = true →
      s.committed = true → s.fault.register.busSilent.state = .clear → s.fault.portHolds.getLsbD 8 = false →
      shortOnsetLevel (fieldNat s.config.shortCode) < current → s.fault.register.short.state ≠ .held →
      let ready : State := { s with mbi := { s.mbi with bus := .silent } }
      ∃ w u t, exec (.serviceResetEnd current) s = .next t ∧ EndOfCommand s u t
        ∧ ready.TakesTrip (Source.busSilent.cause (BitVec.ofNat 16 s.mbi.tec) .localOnly) w ∧ w.charge = s.charge
        ∧ w.TakesTrip s.shortCause u
        ∧ u.fault.register.busSilent = ⟨.active, true, some (BitVec.ofNat 16 s.mbi.tec)⟩
        ∧ u.fault.register.short = ⟨.active, true, some ((s.meas.sample.map (·.vbus)).getD 0)⟩
        ∧ u.ownId = s.ownId ∧ u.power.phase = .run ∧ u.power.check = .running ∧ u.power.checkTimer = some 10
        ∧ u.power.commitCheck = false
        ∧ u.mbi.bus = .silent ∧ u.mbi.permanentSilence = true ∧ u.mbi.line = .unsynced
        ∧ u.closure.holdOff = some (100 + 20 * s.ownId.toNat)
        ∧ u.conn.statusTimer = some (statusPeriodMs (fieldNat s.config.statusPeriod))
        ∧ (s.conn.state = .lockout → u.conn.restarted = false)
        ∧ u.det.shortArmed = true ∧ u.det.short = true ∧ u.meas.cycleTimer = none
        ∧ u.charge = s.charge ∧ u.config = s.config ∧ u.committed = s.committed ∧ u.roster = s.roster)

/-! ## The line and the own attempt -/

/-- A line that becomes idle (R3, R4): an ACTIVE station with frames offers the head of its list; against another offer it
goes on sending unless the other's rank byte is the lower; every other station, and one that has read a start mark first,
receives. The list is not touched. -/
def Obligations.LineIdleOffersTheHead : Prop :=
  ∀ s : State, s.power.phase = .run → s.mbi.bus ≠ .off → s.mbi.tx = .none →
    (∀ f rest, s.mbi.bus = .active → s.mbi.list = f :: rest →
      let sends := { s with mbi := { s.mbi with tx := .sending f.frame.kind, line := .busy } }
      exec (.lineIdle .alone) s = .next sends
        ∧ ∀ rank : Byte, exec (.lineIdle (.offered rank)) s =
            .next (if rank.toNat < 16 * f.frame.kind.code.toNat + s.ownId.toNat then
              { s with mbi := { s.mbi with line := .busy } } else sends))
    ∧ (s.mbi.bus ≠ .active ∨ s.mbi.list = [] →
        exec (.lineIdle .alone) s = .next { s with mbi := { s.mbi with line := .idle } }
          ∧ ∀ rank : Byte, exec (.lineIdle (.offered rank)) s = exec (.lineIdle .startMarkSeen) s)
    ∧ exec (.lineIdle .startMarkSeen) s = .next { s with mbi := { s.mbi with
        line := .busy
        silenceTimer := if s.mbi.bus = .silent ∧ s.mbi.permanentSilence = false then some 2000
          else s.mbi.silenceTimer } }

/-- What becomes of a frame handed to the MBI (R12, R13): outside ACTIVE it is not queued; an own-connection frame, and an
answer while fewer than four answers are pending, joins behind the frames of its rank and of lower rank with a count of 0;
a further answer is dropped with ANSWER_DROPPED; a STATUS replaces, and a TRIP merges with, the pending one, or is held
while that one is on the line.
The end of an attempt takes what was held for it: held no longer, it pends in the list, a TRIP merged with the pending one or,
with none pending, with its own content and a count of 0; with nothing held the list stays. -/
def Obligations.HandedAndHeldFrames : Prop :=
  (∀ s : State,
      let joins (f : Frame) : State := { s with mbi := { s.mbi with
        list := s.mbi.list.takeWhile (fun g => decide (g.frame.kind.code.toNat ≤ f.kind.code.toNat)) ++ [⟨f, 0⟩]
          ++ s.mbi.list.dropWhile (fun g => decide (g.frame.kind.code.toNat ≤ f.kind.code.toNat)) } }
      (s.mbi.bus ≠ .active → ∀ f, s.queueFrame f = s)
      ∧ (s.mbi.bus = .active →
          (∀ f, f.kind.isOwnConnection = true → s.queueFrame f = joins f)
          ∧ (∀ f, f.kind.isAnswer = true →
              s.queueFrame f = if 4 ≤ answersPending s.mbi.list then s.setEvent .answerDropped else joins f)
          ∧ (∀ p, s.mbi.onLine = some .status →
              s.queueFrame (.status p) = { s with mbi := { s.mbi with heldStatus := some p } })
          ∧ (∀ p, s.mbi.onLine ≠ some .status → hasKind .status s.mbi.list = false →
              s.queueFrame (.status p) = joins (.status p))
          ∧ (∀ p, s.mbi.onLine ≠ some .status → hasKind .status s.mbi.list = true →
              s.queueFrame (.status p) = { s with mbi := { s.mbi with list := s.mbi.list.map fun g =>
                if g.frame.kind = .status then { g with frame := .status p } else g } })
          ∧ (∀ p, s.mbi.onLine = some .trip → s.mbi.heldTrip = none →
              s.queueFrame (.trip p) = { s with mbi := { s.mbi with heldTrip := some p } })
          ∧ (∀ p old, s.mbi.onLine = some .trip → s.mbi.heldTrip = some old →
              s.queueFrame (.trip p) = { s with mbi := { s.mbi with
                heldTrip := some { p with scope := if p.scope = 1 ∨ old.scope = 1 then 1 else 0 } } })
          ∧ (∀ p, s.mbi.onLine ≠ some .trip → hasKind .trip s.mbi.list = false →
              s.queueFrame (.trip p) = joins (.trip p))
          ∧ (∀ (p old : TripPayload) (n : Nat) (before after : List TxFrame), s.mbi.onLine ≠ some .trip →
              s.mbi.list = before ++ [⟨.trip old, n⟩] ++ after →
              hasKind .trip before = false → hasKind .trip after = false →
              s.queueFrame (.trip p) = { s with mbi := { s.mbi with list := before
                ++ [⟨.trip { p with scope := if p.scope = 1 ∨ old.scope = 1 then 1 else 0 }, n⟩] ++ after } })))
  ∧ (∀ m : Mbi,
      m.releaseHeld.heldStatus = none ∧ m.releaseHeld.heldTrip = none
        ∧ m.releaseHeld = { m with list := m.releaseHeld.list, heldStatus := none, heldTrip := none }
        ∧ (m.heldStatus = none → m.heldTrip = none → m.releaseHeld.list = m.list)
        ∧ (∀ p, m.heldStatus = some p → ∃ n, (⟨.status p, n⟩ : TxFrame) ∈ m.releaseHeld.list)
        ∧ (m.heldTrip.isSome = true → hasKind .trip m.releaseHeld.list = true)
        ∧ (∀ p, m.heldTrip = some p → hasKind .trip m.list = false →
            (⟨.trip p, 0⟩ : TxFrame) ∈ m.releaseHeld.list
            ∧ (m.heldStatus = none → m.releaseHeld.list
                = m.list.takeWhile (fun g => decide (g.frame.kind.code.toNat ≤ FrameKind.trip.code.toNat)) ++ [⟨.trip p, 0⟩]
                  ++ m.list.dropWhile (fun g => decide (g.frame.kind.code.toNat ≤ FrameKind.trip.code.toNat))))
        ∧ (∀ (p old : TripPayload) (n : Nat) (before after : List TxFrame), m.heldTrip = some p →
            m.list = before ++ [⟨.trip old, n⟩] ++ after → hasKind .trip before = false → hasKind .trip after = false →
            let merged : TxFrame := ⟨.trip { p with scope := if p.scope = 1 ∨ old.scope = 1 then 1 else 0 }, n⟩
            merged ∈ m.releaseHeld.list
            ∧ (m.heldStatus = none → m.releaseHeld.list = before ++ [merged] ++ after)))

/-- A frame transmitted without a collision leaves the list and TEC falls by 1 unless it is 0 (R10); a STATUS that carried
the restarted flag clears it (R93). The CLAIM has its own statement. -/
def Obligations.SuccessfulTransmission : Prop :=
  ∀ (k : FrameKind) (f : TxFrame) (s : State), s.power.phase = .run → s.mbi.tx = .sending k → k ≠ .claim →
    findKind k s.mbi.list = some f →
    ∃ t, exec .txSuccess s = .next t
      ∧ EndOfCommand s { s with
          mbi := Mbi.releaseHeld { s.mbi with
            list := removeKind k s.mbi.list, tec := s.mbi.tec - 1, tx := .none, line := .busy }
          conn := { s.conn with restarted := s.conn.restarted && !f.frame.carriesRestarted } } t

/-- The transmission of a queued CLAIM captures the awaited set, the own record and the claim timer as one change (R40,
R51); with no peer PRESENT the closure window is tested at once (R54). A LEAVE that came while the CLAIM was on the line
is answered with ABANDON(LEAVE), and a trip that came then leaves it at that (R14, R58, R59). -/
def Obligations.ClaimTransmission : Prop :=
  ∀ (p : ClaimPayload) (n : Nat) (s : State), s.power.phase = .run → s.mbi.tx = .sending .claim →
    findKind .claim s.mbi.list = some ⟨.claim p, n⟩ →
    let sent := { s with mbi := Mbi.releaseHeld { s.mbi with
      list := removeKind .claim s.mbi.list, tec := s.mbi.tec - 1, tx := .none, line := .busy, withdrawal := none } }
    let recorded := { sent with closure := { s.closure with
      record := some ⟨s.ownId, s.closure.claimNumber, none⟩ } }
    (∀ v, s.mbi.withdrawal = none → s.closure.claim = some ⟨v, .queued⟩ → presentSet s.roster ≠ [] →
      ∃ t, exec .txSuccess s = .next t
        ∧ EndOfCommand s { recorded with closure := { recorded.closure with claim := some ⟨v,
            .awaiting (presentSet s.roster) (claimTimeoutMs (fieldNat s.config.claimTimeout))⟩ } } t)
    ∧ (∀ v x, s.mbi.withdrawal = none → s.closure.claim = some ⟨v, .queued⟩ → presentSet s.roster = [] →
        s.meas.sample = some x → s.conn.state = .claiming →
        ∃ u t, exec .txSuccess s = .next t ∧ EndOfCommand s u t ∧ ClosesOrAbandons x recorded u)
    ∧ (s.mbi.withdrawal = some .leave →
        ∃ u t, exec .txSuccess s = .next t ∧ EndOfCommand s u t ∧ u.Handed (.abandon ⟨p.number, 4⟩)
          ∧ u = { sent with mbi := { sent.mbi with list := u.mbi.list } })
    ∧ (s.mbi.withdrawal = some .trip → ∃ t, exec .txSuccess s = .next t ∧ EndOfCommand s sent t)

/-- A collision error stops the attempt (R5). A failed attempt raises TEC by 8 (R11, R15); below 128 the frame keeps its
place with its count raised, is dropped with TX_DROPPED at its eighth failure, or is withdrawn if a withdrawal waited
(R14). A dropped CLAIM ends its claim with outcome DROPPED (R50). That a collided attempt stands until the row
TX_ATTEMPT_FAILED is log entry 6 (DESIGN CHOICE), and that a STATUS or TRIP held for a frame dropped at its eighth failure
joins the list is log entry 37 (DEDUCED). -/
def Obligations.FailedAttempt : Prop :=
  ∀ (k : FrameKind) (f : TxFrame) (race : Race) (s : State), s.power.phase = .run →
    findKind k s.mbi.list = some f →
    let failed (l : List TxFrame) : Mbi := { s.mbi with tec := s.mbi.tec + 8, tx := .none, line := .busy, list := l }
    (s.mbi.tx = .sending k →
      exec .collisionError s = .next { s with mbi := { s.mbi with tx := .collided k } })
    ∧ ((s.mbi.tx = .sending k ∨ s.mbi.tx = .collided k) → s.mbi.tec < 120 →
        (s.mbi.withdrawal = none → f.failed < 7 →
          ∃ t, exec (.txAttemptFailed race) s = .next t
            ∧ EndOfCommand s { s with mbi := (failed (bumpFailed k s.mbi.list)).releaseHeld } t)
        ∧ (s.mbi.withdrawal = none → 7 ≤ f.failed → k ≠ .claim ∨ s.closure.claim = none →
            ∃ t, exec (.txAttemptFailed race) s = .next t
              ∧ EndOfCommand s (({ s with mbi := (failed (removeKind k s.mbi.list)).releaseHeld } : State).setEvent
                  .txDropped) t)
        ∧ (s.mbi.withdrawal = none → 7 ≤ f.failed → k = .claim → s.closure.claim.isSome = true →
            s.conn.state = .claiming →
            ∃ u t, exec (.txAttemptFailed race) s = .next t ∧ EndOfCommand s u t
              ∧ u.closure.claim = none ∧ u.closure.lastOutcome = .dropped
              ∧ u.closure.holdOff = some (100 + 20 * s.ownId.toNat) ∧ u.hasEvent .claimAbandoned = true
              ∧ u.hasEvent .txDropped = true ∧ u.conn.state = .isolated
              ∧ u.hasEvent .stateChange = true ∧ u.switches = { chg := false, dsg := false }
              ∧ u.mbi.tec = s.mbi.tec + 8 ∧ u.mbi.tx = .none)
        ∧ (s.mbi.withdrawal.isSome = true → k = .claim →
            ∃ t, exec (.txAttemptFailed race) s = .next t
              ∧ EndOfCommand s { s with
                  mbi := Mbi.releaseHeld { failed (removeKind .claim s.mbi.list) with withdrawal := none } } t))

/-- The failed attempt with which TEC reaches 128 takes the MBI into SILENT (R15, R16): the whole list is discarded, the
count of good frames and the silence timer start, a claim in progress ends, and BUS_SILENT is present. Armed, it trips
the station, with a record of its own that carries TEC (R138); held, it is HELD.
With a sleep pending, the two orders of R154: the trip first cancels the sleep and stands; the empty list first, the part
sleeps within that command (log entry 22, DEDUCED) and no trip is recorded, unless SSN low, a service reset waiting or a
running self-check bars the entry, and then the trip is taken (R153, R176; log entry 23). With BUS_SILENT held by the port
nothing is cancelled: it is HELD and the sleep goes on pending, or the part sleeps at once. -/
def Obligations.SilenceAtTec128 : Prop :=
  (∀ (k : FrameKind) (race : Race) (s : State), s.power.phase = .run → s.mbi.onLine = some k → 120 ≤ s.mbi.tec →
    s.conn.sleepPending = false → (s.closure.claim.isSome = true → s.conn.state = .claiming) →
    let tec : Half := BitVec.ofNat 16 (min 255 (s.mbi.tec + 8))
    let recorded (t : State) (before : ConnState) : Prop := ∃ r ∈ t.fault.history,
      r.Tells (Source.busSilent.cause tec .localOnly) before (s.fault.tripCounter + 1) s.snapshot
    ∃ t, exec (.txAttemptFailed race) s = .next t
      ∧ t.mbi.bus = .silent ∧ t.mbi.tec = min 255 (s.mbi.tec + 8) ∧ t.mbi.list = [] ∧ t.mbi.tx = .none
      ∧ t.mbi.heldStatus = none ∧ t.mbi.heldTrip = none ∧ t.mbi.withdrawal = none
      ∧ t.mbi.goodCount = 0 ∧ t.mbi.silenceTimer = some 2000
      ∧ t.closure.claim = none ∧ t.fault.register.busSilent.present = true
      ∧ t.ownId = s.ownId ∧ t.config = s.config ∧ t.committed = s.committed ∧ t.roster = s.roster
      ∧ t.charge = s.charge ∧ t.meas = s.meas
      ∧ (s.committed = true → s.fault.register.busSilent.state = .clear → s.fault.portHolds.getLsbD 8 = false →
          t.fault.register.busSilent = ⟨.active, true, some tec⟩ ∧ t.HasTripped
            ∧ t.conn.state = (if s.conn.state = .lockout then .lockout else .tripped)
            ∧ ∃ before, (s.closure.claim = none → before = s.conn.state) ∧ recorded t before)
      ∧ (s.committed = true → s.fault.register.busSilent.state = .clear → s.fault.portHolds.getLsbD 8 = true →
          t.fault.register.busSilent.state = .held ∧ t.hasEvent .heldFault = true))
  ∧ (∀ (k : FrameKind) (s : State), s.power.phase = .run → s.mbi.onLine = some k → 120 ≤ s.mbi.tec →
    s.conn.sleepPending = true → s.committed = true → s.fault.register.busSilent.state = .clear →
    let tec : Half := BitVec.ofNat 16 (min 255 (s.mbi.tec + 8))
    let free := s.port.line = .released ∧ s.port.resetPending = false ∧ s.power.check ≠ .running
    let trips (t : State) : Prop :=
      t.power.phase = .run ∧ t.mbi.bus = .silent ∧ t.mbi.list = [] ∧ t.conn.sleepPending = false
        ∧ t.hasEvent .sleepCancelled = true ∧ t.HasTripped
        ∧ t.fault.register.busSilent = ⟨.active, true, some tec⟩
        ∧ (∃ before, ∃ r ∈ t.fault.history,
            r.Tells (Source.busSilent.cause tec .localOnly) before (s.fault.tripCounter + 1) s.snapshot)
        ∧ (s.fault.tripCounter < 65535 → s.fault.tripCounter < t.fault.tripCounter)
    let sleeps (t : State) : Prop :=
      t.power.phase = .sleep ∧ t.mbi.bus = .off ∧ t.mbi.list = [] ∧ t.conn.sleepPending = false
        ∧ t.power.wakeLineArmed = true ∧ t.det.wakeCurrentArmed = true
        ∧ t.fault.tripCounter = s.fault.tripCounter ∧ t.fault.history = s.fault.history ∧ t.charge = s.charge
        ∧ t.config = s.config ∧ t.ownId = s.ownId
    (s.fault.portHolds.getLsbD 8 = false →
      (∃ t, exec (.txAttemptFailed .faultFirst) s = .next t ∧ trips t)
      ∧ (free → ∃ t, exec (.txAttemptFailed .controllerFirst) s = .next t ∧ sleeps t)
      ∧ (¬ free → ∃ t, exec (.txAttemptFailed .controllerFirst) s = .next t ∧ trips t))
    ∧ (s.fault.portHolds.getLsbD 8 = true →
      (∃ t, exec (.txAttemptFailed .faultFirst) s = .next t ∧ t.fault.register.busSilent.state = .held
        ∧ t.power.phase = .run ∧ t.mbi.bus = .silent ∧ t.mbi.list = [] ∧ t.conn.sleepPending = true
        ∧ (free → t.sleepDue = true) ∧ t.fault.tripCounter = s.fault.tripCounter)
      ∧ (free → ∃ t, exec (.txAttemptFailed .controllerFirst) s = .next t ∧ sleeps t)))

/-! ## Received frames -/

/-- A frame found faulty (R6, R16, R17): REC rises, saturating at 255, the count of good frames is back at 0, and the slot
is driven in ACTIVE unless reject-muted. With REC reaching 128 the station becomes reject-muted and RX_DEGRADED is
present, which trips the station if it is armed, with REC as its value (R138); below that nothing else changes. That the slot of the very frame that takes REC to 128 is still driven is log
entry 10 (DEDUCED). -/
def Obligations.FaultyFrame : Prop :=
  ∀ (frame : RawFrame) (s : State), (Instr.frameFaulty frame).wf = true → s.hears = true →
    (s.mbi.recCount < 127 ∨ s.mbi.rejectMuted = true →
      ∃ t, exec (.frameFaulty frame) s = .next t
        ∧ EndOfCommand s { s.receiving with mbi := { s.receiving.mbi with
            slotDriven := decide (s.mbi.bus = .active) && !s.mbi.rejectMuted
            recCount := min 255 (s.mbi.recCount + 1)
            goodCount := 0 } } t)
    ∧ (127 ≤ s.mbi.recCount → s.mbi.rejectMuted = false →
      ∃ t, exec (.frameFaulty frame) s = .next t
        ∧ t.mbi.rejectMuted = true ∧ t.mbi.recCount = min 255 (s.mbi.recCount + 1) ∧ t.mbi.goodCount = 0
        ∧ t.mbi.slotDriven = decide (s.mbi.bus = .active)
        ∧ t.fault.register.rxDegraded.present = true
        ∧ t.roster = s.roster ∧ t.charge = s.charge ∧ t.config = s.config ∧ t.meas = s.meas
        ∧ (s.committed = true → s.fault.register.rxDegraded.state = .clear → s.fault.portHolds.getLsbD 9 = false →
            t.fault.register.rxDegraded.state = .active
              ∧ s.receiving.TakesTrip
                  (Source.rxDegraded.cause (BitVec.ofNat 16 (min 255 (s.mbi.recCount + 1))) .localOnly) t)
        ∧ (s.committed = true → s.fault.register.rxDegraded.state = .clear → s.fault.portHolds.getLsbD 9 = true →
            t.fault.register.rxDegraded.state = .held))

/-- What receiving a frame does before the frame is judged (R3, R4, R13, R14, R16): a frame of the own that was being sent
has lost arbitration and keeps its place and its count, with TEC unchanged; a CLAIM whose withdrawal waited leaves; in
SILENT the start mark has started the silence timer again. Nothing outside the MBI changes. That a frame read to its end
means a lost arbitration is log entry 7, and that the timer starts again at the frame's own row log entry 9 (both DEDUCED).
A frame that others rejected, and a frame of unknown kind, have no further effect at a station that found them good, REC
included (R7, R8, R17): in SILENT the first sets the count of good frames back to 0 and the second counts unless it carries
the own id (log entry 27, DEDUCED). -/
def Obligations.ReceivingAFrame : Prop :=
  (∀ s : State,
      s.receiving = { s with mbi := s.receiving.mbi }
      ∧ s.receiving.mbi.line = .busy ∧ s.receiving.mbi.tec = s.mbi.tec ∧ s.receiving.mbi.recCount = s.mbi.recCount
      ∧ s.receiving.mbi.bus = s.mbi.bus ∧ s.receiving.mbi.goodCount = s.mbi.goodCount
      ∧ s.receiving.mbi.silenceTimer
          = (if s.mbi.bus = .silent ∧ s.mbi.permanentSilence = false then some 2000 else s.mbi.silenceTimer)
      ∧ (s.mbi.tx = .none → s.receiving.mbi.list = s.mbi.list ∧ s.receiving.mbi.tx = .none)
      ∧ (∀ k, s.mbi.tx = .sending k → s.receiving.mbi.tx = .none
          ∧ (s.mbi.heldStatus = none → s.mbi.heldTrip = none → s.mbi.withdrawal = none →
              s.receiving.mbi.list = s.mbi.list)
          ∧ (s.mbi.heldStatus = none → s.mbi.heldTrip = none → s.mbi.withdrawal.isSome = true → k = .claim →
              s.receiving.mbi.list = removeKind .claim s.mbi.list ∧ s.receiving.mbi.withdrawal = none)))
  ∧ (∀ (frame : RawFrame) (s : State), s.hears = true →
      ((Instr.frameRejected frame).wf = true →
        ∃ t, exec (.frameRejected frame) s = .next t
          ∧ EndOfCommand s { s.receiving with mbi := { s.receiving.mbi with goodCount := 0 } } t)
      ∧ ((Instr.unknownKindFrame frame).wf = true →
        ∃ t, exec (.unknownKindFrame frame) s = .next t
          ∧ EndOfCommand s (if s.mbi.bus = .silent ∧ s.mbi.permanentSilence = false then
              { s.receiving with mbi := { s.receiving.mbi with
                goodCount := if frame.rank.extractLsb' 0 4 = s.ownId then 0 else min 16 (s.mbi.goodCount + 1) } }
            else s.receiving) t))

/-- An accepted frame from a peer, of every kind (R8, R9, R16, R17, R25): REC falls by 1 and the reject-muted flag clears
below 96; in SILENT the frame counts as good; the slot is not driven; the peer's entry is refreshed, with PEER_ARRIVED if
it was EMPTY, and no other entry changes; a refresh-only frame does no more than that. That the silence timer stands at
2000 ms at the end of the frame's row is log entry 9 (DEDUCED). -/
def Obligations.AcceptedFrames : Prop :=
  ∀ (src : StationId) (f : Frame) (s : State), s.hears = true → src ≠ s.ownId →
    ∃ u t, exec (f.received src) s = .next t ∧ EndOfCommand s u t
      ∧ u.mbi.recCount = s.mbi.recCount - 1
      ∧ u.mbi.rejectMuted = (s.mbi.rejectMuted && decide (96 ≤ s.mbi.recCount - 1))
      ∧ (s.mbi.bus = .silent → s.mbi.permanentSilence = false →
          u.mbi.goodCount = min 16 (s.mbi.goodCount + 1) ∧ u.mbi.silenceTimer = some 2000)
      ∧ u.mbi.slotDriven = false ∧ u.mbi.line = .busy ∧ u.mbi.tec = s.mbi.tec ∧ u.mbi.bus = s.mbi.bus
      ∧ (rosterGet src s.roster = none → u.hasEvent .peerArrived = true)
      ∧ (∀ id, id ≠ src → rosterGet id u.roster = rosterGet id s.roster)
      ∧ (∃ e, rosterGet src u.roster = some e ∧ e.age = 0 ∧ (e.state = .present ∨ e.state = .asleep)
          ∧ (f.refreshOnly = true → e = match rosterGet src s.roster with
              | some old => { old with state := .present, age := 0 }
              | none => { state := .present, age := 0, announced := none, trippedLocal := false, lastClaim := none,
                          status := none }))
      ∧ u.ownId = s.ownId ∧ u.config = s.config ∧ u.committed = s.committed ∧ u.meas = s.meas ∧ u.charge = s.charge
      ∧ u.det = s.det ∧ u.power = s.power ∧ u.port.enables = s.port.enables
      ∧ (f.refreshOnly = true → u.closure = s.closure ∧ u.conn = s.conn ∧ u.switches = s.switches
          ∧ u.fault.history = s.fault.history)

/-- A frame from the own id, of any kind, reveals a duplicate (R18, R60, R129, R141): the permanent-silence mark is set and
SILENT entered with its count and timer standing still; the list is discarded, a claim in progress ends, and the station
is in LOCKOUT with the lockout window started and a record of DUP_ID with the own id (R138). The Roster does not change.
That the entry into SILENT by a duplicate id reports BUS_SILENT too, after DUP_ID and the discard, and that this is, armed, a
second trip taken in LOCKOUT, is the model's own reading: log entry 21 (DEDUCED, unsafe).
It speaks of the frame that finds DUP_ID CLEAR; a further frame of the own id while DUP_ID is ACTIVE is not in it, and what
the onset of such a frame does is in OnsetTable (R130). -/
def Obligations.DuplicateIdSilencesTheStation : Prop :=
  ∀ (f : Frame) (s : State), s.hears = true → s.fault.register.dupId.state = .clear → s.PathSafe →
    ∃ t, exec (f.received s.ownId) s = .next t
      ∧ (∃ r ∈ t.fault.history, r.Tells (Source.dupId.cause (s.ownId.setWidth 16) .localOnly) s.conn.state
          (s.fault.tripCounter + 1) s.snapshot)
      ∧ (s.committed = true → s.mbi.bus ≠ .silent → s.fault.register.busSilent.state = .clear →
          s.fault.portHolds.getLsbD 8 = false →
          t.fault.register.busSilent = ⟨.active, true, some (BitVec.ofNat 16 s.mbi.tec)⟩
            ∧ ∃ r ∈ t.fault.history, r.code = .of .busSilent ∧ r.source = .busSilent ∧ r.scope = .localOnly
              ∧ r.value = BitVec.ofNat 16 s.mbi.tec ∧ r.connState = .lockout)
      ∧ t.mbi.bus = .silent ∧ t.mbi.permanentSilence = true ∧ t.mbi.list = [] ∧ t.mbi.goodCount = 0
      ∧ t.mbi.silenceTimer = none ∧ t.mbi.recCount = s.mbi.recCount - 1 ∧ t.roster = s.roster
      ∧ t.fault.register.dupId = ⟨.active, true, some (s.ownId.setWidth 16)⟩
      ∧ t.conn.state = .lockout ∧ t.conn.path = .none ∧ t.switches = { chg := false, dsg := false }
      ∧ t.closure.claim = none ∧ t.fault.lockout = some 10000 ∧ t.hasEvent .tripTaken = true
      ∧ t.conn.sleepPending = false
      ∧ t.ownId = s.ownId ∧ t.config = s.config ∧ t.committed = s.committed ∧ t.meas = s.meas ∧ t.charge = s.charge

/-- STATUS_RECEIVED (R26, R27, R42): the peer's entry takes state, announced connection state and the status part; a
STATUS that announces anything but TRIPPED clears the tripped-local mark; one with the restarted flag drops the last
claim number and clears the record if the peer holds it.
A TRIP with scope LOCAL (R28, R42) marks its sender tripped-local and clears the record if the sender holds it, and touches
nothing else. -/
def Obligations.StatusAndLocalTrip : Prop :=
  (∀ (src : StationId) (p : StatusPayload) (s : State), s.hears = true → src ≠ s.ownId →
      (Frame.status p).refreshOnly = false →
      ∃ u t, exec (.statusReceived src p) s = .next t ∧ EndOfCommand s u t
        ∧ rosterGet src u.roster = some
            { state := if p.stateByte.getLsbD 0 then .asleep else .present
              age := 0
              announced := some (ConnState.ofCode (p.stateByte.extractLsb' 5 3))
              trippedLocal := ((rosterGet src s.roster).map (·.trippedLocal)).getD false
                && decide (p.stateByte.extractLsb' 5 3 = 6)
              lastClaim := if p.flagsByte.getLsbD 6 then none else (rosterGet src s.roster).bind (·.lastClaim)
              status := some
                { path := Path.ofCode (p.stateByte.extractLsb' 3 2), voltage := p.voltage, current := p.current,
                  level := if p.level = 255 then none else some p.level, temperature := p.temperature,
                  flags := p.flagsByte &&& 0xF8, period := p.stateByte.extractLsb' 1 2 } }
        ∧ u.closure.record
            = (if p.flagsByte.getLsbD 6 = true ∧ (s.closure.record.map (·.holder)) = some src then none
               else s.closure.record)
        ∧ (let v := s.receiving.acceptFrame src
           u = { v with
             roster := u.roster
             closure := { v.closure with record := u.closure.record }
             port := { v.port with events := u.port.events } }))
  ∧ (∀ (src : StationId) (p : TripPayload) (s : State), s.hears = true → src ≠ s.ownId →
      (Frame.trip p).refreshOnly = false → p.scope = 0 →
      ∃ u t, exec (.tripReceived src p) s = .next t ∧ EndOfCommand s u t
        ∧ (∃ e, rosterGet src u.roster = some e ∧ e.trippedLocal = true ∧ e.state = .present ∧ e.age = 0
            ∧ (∀ old, rosterGet src s.roster = some old → e = { old with state := .present, age := 0, trippedLocal := true }))
        ∧ u.closure.record
            = (if (s.closure.record.map (·.holder)) = some src then none else s.closure.record)
        ∧ (let v := s.receiving.acceptFrame src
           u = { v with
             roster := u.roster
             closure := { v.closure with record := u.closure.record }
             port := { v.port with events := u.port.events } }))

/-- A TRIP with scope BUS (R43, R63, R88, R89, R148, R149) clears the record whoever holds it and starts the quiet period
at 1000 ms; in CLAIMING, CLOSING and CONNECTED the station opens its switches and goes to ISOLATED, in RELEASING it stays,
and in all four BUS_TRIP_FOLLOWED is set; in the other states it only takes the trip. No trip of its own is counted.
In CLOSING the closing hold is removed as well. An over-current source that it alone held HELD then has its postponed
action: the station trips from ISOLATED (R84, R88, R132, R134). One that the port holds too stays HELD. -/
def Obligations.BusTripReceived : Prop :=
  (∀ (src : StationId) (p : TripPayload) (s : State), s.hears = true → src ≠ s.ownId →
    (Frame.trip p).refreshOnly = false → p.scope = 1 →
    (s.conn.state = .closing → ∀ oc, ¬ s.WaitsForClosingHold oc) →
    ∃ u t, exec (.tripReceived src p) s = .next t ∧ EndOfCommand s u t
      ∧ u.closure.record = none ∧ u.closure.quiet = some 1000
      ∧ u.closure.claimNumber = s.closure.claimNumber ∧ u.closure.holdOff = s.closure.holdOff
      ∧ u.fault.tripCounter = s.fault.tripCounter ∧ u.fault.history = s.fault.history
      ∧ u.fault.lockout = s.fault.lockout ∧ u.conn.joined = s.conn.joined
      ∧ (s.conn.state = .claiming ∨ s.conn.state = .closing ∨ s.conn.state = .connected →
          u.Entered .isolated ∧ u.hasEvent .busTripFollowed = true)
      ∧ (s.conn.state = .claiming → u.closure.claim = none
          ∧ (s.closure.claim.isSome = true → u.closure.lastOutcome = .busTrip))
      ∧ (s.conn.state = .closing → u.fault.closingHold = false)
      ∧ (∀ oc, oc = .ocDsg ∨ oc = .ocChg → u.fault.register.get oc = s.fault.register.get oc)
      ∧ (s.conn.state = .releasing → u.conn = s.conn ∧ u.hasEvent .busTripFollowed = true)
      ∧ (s.conn.state = .detached ∨ s.conn.state = .isolated ∨ s.conn.state = .tripped ∨ s.conn.state = .lockout →
          u.conn = s.conn ∧ u.switches = s.switches))
  ∧ (∀ (src : StationId) (p : TripPayload) (oc : Source) (s : State), s.hears = true → src ≠ s.ownId →
    (Frame.trip p).refreshOnly = false → p.scope = 1 → s.conn.state = .closing → s.WaitsForClosingHold oc →
    ∃ u t, exec (.tripReceived src p) s = .next t ∧ EndOfCommand s u t
      ∧ s.TripsPostponed oc u ∧ u.conn.state = .tripped ∧ u.hasEvent .busTripFollowed = true
      ∧ u.fault.closingHold = false ∧ u.closure.record = none ∧ u.closure.quiet = some 1000
      ∧ (s.fault.tripCounter < 65535 → s.fault.tripCounter < u.fault.tripCounter)
      ∧ (∀ other, s.fault.portHolds.getLsbD (other.code - 1) = true → other = .ocDsg ∨ other = .ocChg →
          u.fault.register.get other = s.fault.register.get other)
      ∧ u.conn.joined = s.conn.joined)

/-- CLAIM_RECEIVED (R29, R39, R49, R64 to R66): the claim number is noted; the record becomes the claimant's with its
expiry unless another station holds it; and the answer is BUSY, else QUIET, else ASSENT on a dead bus or inside the
window, else WINDOW, unless four answers are pending. A station whose own CLAIM is still queued yields to ISOLATED first:
its claim ends with outcome YIELDED and no hold-off, and the record and the answer follow in the same way (R49, R64). -/
def Obligations.ClaimReceived : Prop :=
  (∀ (src : StationId) (p : ClaimPayload) (s : State), s.hears = true → src ≠ s.ownId →
      (Frame.claim p).refreshOnly = false →
      (∀ c, s.closure.claim = some c → c.phase ≠ .queued) →
      ∃ u t, exec (.claimReceived src p) s = .next t ∧ EndOfCommand s u t
        ∧ (∃ e, rosterGet src u.roster = some e ∧ e.lastClaim = some p.number)
        ∧ (let busy := ∃ r, s.closure.record = some r ∧ r.holder ≠ src
           let target : Byte := src.setWidth 8
           let room := answersPending (s.receiving.acceptFrame src).mbi.list < 4
           (busy → u.closure = s.closure ∧ (room → u.Handed (.object ⟨target, p.number, 1⟩)))
           ∧ (¬ busy →
                u.closure = { s.closure with record := some ⟨src, p.number,
                  some (claimTimeoutMs (p.timing.extractLsb' 4 4).toNat + settleMs (p.timing.extractLsb' 0 4).toNat
                    + 100)⟩ }
                ∧ (room →
                    (s.closure.quiet.isSome = true → u.Handed (.object ⟨target, p.number, 2⟩))
                    ∧ (s.closure.quiet = none → ∀ x, s.meas.sample = some x →
                        (if x.vbus.toNat < 5 * fieldNat s.config.deadBus
                            ∨ ((p.voltage.toNat : Int) - x.vbus.toNat).natAbs ≤ 5 * fieldNat s.config.window then
                          u.Handed (.assent ⟨target, p.number⟩)
                        else u.Handed (.object ⟨target, p.number, 3⟩)))
                    ∧ (s.closure.quiet = none → s.meas.sample = none → u.Handed (.object ⟨target, p.number, 3⟩)))))
        ∧ (let v := s.receiving.acceptFrame src
           u = { v with
             mbi := { v.mbi with list := u.mbi.list }
             roster := u.roster
             closure := u.closure
             port := { v.port with events := u.port.events } }))
  ∧ (∀ (src : StationId) (p : ClaimPayload) (v : Half) (s : State), s.hears = true → src ≠ s.ownId →
      (Frame.claim p).refreshOnly = false → s.conn.state = .claiming → s.closure.claim = some ⟨v, .queued⟩ →
      s.mbi.tx = .none → (s.mbi.list.filter fun f => decide (f.frame.kind = .claim)).length = 1 →
      ∃ u t, exec (.claimReceived src p) s = .next t ∧ EndOfCommand s u t
        ∧ u.conn.state = .isolated ∧ u.closure.claim = none ∧ u.closure.lastOutcome = .yielded
        ∧ u.closure.holdOff = s.closure.holdOff ∧ hasKind .claim u.mbi.list = false
        ∧ u.hasEvent .stateChange = true ∧ u.switches = { chg := false, dsg := false }
        ∧ (∃ e, rosterGet src u.roster = some e ∧ e.lastClaim = some p.number)
        ∧ u.closure.claimNumber = s.closure.claimNumber ∧ u.closure.quiet = s.closure.quiet
        ∧ (let busy := ∃ r, s.closure.record = some r ∧ r.holder ≠ src ∧ r.holder ≠ s.ownId
           let target : Byte := src.setWidth 8
           let room := answersPending s.mbi.list < 4
           (busy → u.closure.record = s.closure.record ∧ (room → u.Handed (.object ⟨target, p.number, 1⟩)))
           ∧ (¬ busy →
                u.closure.record = some ⟨src, p.number,
                  some (claimTimeoutMs (p.timing.extractLsb' 4 4).toNat + settleMs (p.timing.extractLsb' 0 4).toNat
                    + 100)⟩
                ∧ (room →
                    (s.closure.quiet.isSome = true → u.Handed (.object ⟨target, p.number, 2⟩))
                    ∧ (s.closure.quiet = none → ∀ x, s.meas.sample = some x →
                        (if x.vbus.toNat < 5 * fieldNat s.config.deadBus
                            ∨ ((p.voltage.toNat : Int) - x.vbus.toNat).natAbs ≤ 5 * fieldNat s.config.window then
                          u.Handed (.assent ⟨target, p.number⟩)
                        else u.Handed (.object ⟨target, p.number, 3⟩)))
                    ∧ (s.closure.quiet = none → s.meas.sample = none → u.Handed (.object ⟨target, p.number, 3⟩))))))

/-- OBJECT and ASSENT (R52 to R54, R56). An OBJECT for the current claim ends it: OBJECTED with the objector and its
reason, ABANDON(OBJECTED), hold-off, ISOLATED. An ASSENT for it takes its sender from the awaited set, and the last one
awaited leads to the closure window test. Any other answer only refreshes the Roster: one with another target or claim
number, an ASSENT from a station not awaited, and every answer while the claim is still QUEUED or none is in progress. -/
def Obligations.AnswersReceived : Prop :=
  (∀ (src : StationId) (ids : List StationId) (timer : Nat) (v : Half) (s : State), s.hears = true → src ≠ s.ownId →
    s.conn.state = .claiming → s.closure.claim = some ⟨v, .awaiting ids timer⟩ →
    s.closure.record = some ⟨s.ownId, s.closure.claimNumber, none⟩ →
    let own : Byte := s.ownId.setWidth 8
    let w (u : State) : State := { s.receiving.acceptFrame src with
      roster := u.roster, port := { (s.receiving.acceptFrame src).port with events := u.port.events } }
    (∀ reason : ObjectReason,
      ∃ u t, exec (.objectReceived src ⟨own, s.closure.claimNumber, reason.code⟩) s = .next t ∧ EndOfCommand s u t
        ∧ u.ClaimFailed (.objected src reason) ∧ u.Handed (.abandon ⟨s.closure.claimNumber, 1⟩)
        ∧ u.closure.record = none ∧ TouchesConnectionOnly (w u) u)
    ∧ (src ∈ ids → (∃ id, id ∈ ids ∧ id ≠ src) →
        ∃ u t, exec (.assentReceived src ⟨own, s.closure.claimNumber⟩) s = .next t ∧ EndOfCommand s u t
          ∧ u = { w u with closure := { s.closure with
              claim := some ⟨v, .awaiting (ids.filter fun id => decide (id ≠ src)) timer⟩ } })
    ∧ (src ∈ ids → (∀ id, id ∈ ids → id = src) → ∀ x, s.meas.sample = some x →
        ∃ u t, exec (.assentReceived src ⟨own, s.closure.claimNumber⟩) s = .next t ∧ EndOfCommand s u t
          ∧ ClosesOrAbandons x { w u with closure := { s.closure with claim := some ⟨v, .awaiting [] timer⟩ } } u)
    ∧ (∀ target number : Byte, target ≠ own ∨ number ≠ s.closure.claimNumber ∨ src ∉ ids →
        ∃ u t, exec (.assentReceived src ⟨target, number⟩) s = .next t ∧ EndOfCommand s u t ∧ u = w u)
    ∧ (∀ target number reason : Byte, target ≠ own ∨ number ≠ s.closure.claimNumber →
        ∃ u t, exec (.objectReceived src ⟨target, number, reason⟩) s = .next t ∧ EndOfCommand s u t ∧ u = w u))
  ∧ (∀ (src : StationId) (target number reason : Byte) (s : State), s.hears = true → src ≠ s.ownId →
    (∀ v ids timer, s.closure.claim ≠ some ⟨v, .awaiting ids timer⟩) →
    let w (u : State) : State := { s.receiving.acceptFrame src with
      roster := u.roster, port := { (s.receiving.acceptFrame src).port with events := u.port.events } }
    (∃ u t, exec (.assentReceived src ⟨target, number⟩) s = .next t ∧ EndOfCommand s u t ∧ u = w u)
      ∧ (∃ u t, exec (.objectReceived src ⟨target, number, reason⟩) s = .next t ∧ EndOfCommand s u t ∧ u = w u))

/-- CLOSED, ABANDON and RELEASE (R29, R30, R42). CLOSED announces CONNECTED and clears the tripped-local mark; CLOSED and
ABANDON clear the record if the sender holds it for the number they carry; RELEASE announces RELEASING with path NONE and
leaves the record. -/
def Obligations.ClosedAbandonRelease : Prop :=
  ∀ (src : StationId) (number reason : Byte) (vbus : Half) (s : State), s.hears = true → src ≠ s.ownId →
    let v := if (rosterGet src s.roster).isNone then (s.receiving.acceptFrame src).setEvent .peerArrived
      else s.receiving.acceptFrame src
    let fresh : RosterEntry := match rosterGet src s.roster with
      | some old => { old with state := .present, age := 0 }
      | none => { state := .present, age := 0, announced := none, trippedLocal := false, lastClaim := none,
                  status := none }
    let cleared := if ∃ r, s.closure.record = some r ∧ r.holder = src ∧ r.number = number then none
      else s.closure.record
    let known (e : RosterEntry) (record : Option ClosureRecord) : State := { v with
      roster := rosterSet src e s.roster, closure := { s.closure with record := record } }
    (∃ t, exec (.closedReceived src ⟨number, vbus⟩) s = .next t
      ∧ EndOfCommand s (known { fresh with announced := some .connected, trippedLocal := false } cleared) t)
    ∧ (1 ≤ reason.toNat → reason.toNat ≤ 4 → ∃ t, exec (.abandonReceived src ⟨number, reason⟩) s = .next t
      ∧ EndOfCommand s (known fresh cleared) t)
    ∧ (∃ t, exec (.releaseReceived src) s = .next t
      ∧ EndOfCommand s (known { fresh with
          announced := some .releasing
          status := fresh.status.map fun x => { x with path := .none } } s.closure.record) t)

/-- The two ends of SILENT (R16): at 16 good frames, or when the silence timer runs out, and not while the
permanent-silence mark stands, the MBI is ACTIVE again with TEC 0, BUS_SILENT is absent, and a STATUS is handed over. With
the mark set neither command changes anything. -/
def Obligations.SilenceEnds : Prop :=
  (∀ (c : Instr) (s : State), s.power.phase = .run → s.mbi.bus = .silent → s.mbi.permanentSilence = false →
    (c = .silentExitCount ∧ 16 ≤ s.mbi.goodCount ∨ c = .silenceTimerExpiry ∧ s.mbi.silenceTimer.isSome = true) →
    ∃ u t, exec c s = .next t ∧ EndOfCommand s u t
      ∧ u.mbi.bus = .active ∧ u.mbi.tec = 0 ∧ u.mbi.goodCount = 0 ∧ u.mbi.silenceTimer = none ∧ u.StatusHanded
      ∧ u.fault.register.busSilent.present = false
      ∧ (s.fault.register.busSilent.state = .active → u.fault.register.busSilent.state = .active)
      ∧ (s.fault.register.busSilent.state = .held → u.fault.register.busSilent = ⟨.lapsed, false, none⟩)
      ∧ u = { s with
          mbi := { s.mbi with
            bus := .active, tec := 0, goodCount := 0, silenceTimer := none, list := u.mbi.list,
            heldStatus := u.mbi.heldStatus }
          fault := { s.fault with register := u.fault.register } })
  ∧ (∀ s : State, s.mbi.permanentSilence = true →
      exec .silentExitCount s = .next s ∧ exec .silenceTimerExpiry s = .next s)

/-! ## Timers -/

/-- The two limits of a roster entry (R31, R32, R34): a PRESENT entry becomes STALE with its age at the limit at least,
and PEER_STALE is set; a STALE entry becomes EMPTY, PEER_LOST is set, and the record clears if that peer held it. That
the command is taken whenever it is given is the model's choice (log entry 3).
By itself the row comes due at its limit: 350, 800, 1550 or 3050 ms for PRESENT and 1000, 2500, 5000 or 10000 ms for STALE by
the entry's period code 0 to 3, and the last of each without a status part; an ASLEEP entry has neither, and an id without an
entry neither. That a limit counts as passed when the age reaches it is log entry 38 (DESIGN CHOICE). -/
def Obligations.RosterLimits : Prop :=
  (∀ (id : StationId) (e : RosterEntry) (s : State), s.power.phase = .run → s.mbi.bus ≠ .off →
    rosterGet id s.roster = some e →
    let period := (e.status.map fun x => statusPeriodMs x.period.toNat).getD 1000
    let aged : RosterEntry := { e with state := .stale, age := max e.age (3 * period + 50) }
    (e.state = .present →
      ∃ t, exec (.rosterStaleLimit id) s = .next t
        ∧ EndOfCommand s (({ s with roster := rosterSet id aged s.roster } : State).setEvent .peerStale) t)
    ∧ (e.state = .stale →
      ∃ u t, exec (.rosterEmptyLimit id) s = .next t ∧ EndOfCommand s u t
        ∧ rosterGet id u.roster = none ∧ (∀ other, other ≠ id → rosterGet other u.roster = rosterGet other s.roster)
        ∧ u.hasEvent .peerLost = true
        ∧ u = { s with
            roster := u.roster
            closure := { s.closure with record := if (s.closure.record.map (·.holder)) = some id then none
              else s.closure.record }
            port := { s.port with events := u.port.events } }))
  ∧ (∀ (id : StationId) (s : State), s.power.phase = .run → s.dueAtOnce = none → (s.roster.map (·.id)).Nodup →
      (Instr.rosterStaleLimit id ∈ s.candidates ↔
        ∃ e, rosterGet id s.roster = some e ∧ e.state = .present ∧ e.staleLimit ≤ e.age)
      ∧ (Instr.rosterEmptyLimit id ∈ s.candidates ↔
        ∃ e, rosterGet id s.roster = some e ∧ e.state = .stale ∧ e.emptyLimit ≤ e.age)
      ∧ (rosterGet id s.roster = none ∨ (rosterGet id s.roster).map (·.state) = some .asleep →
          Instr.rosterStaleLimit id ∉ s.candidates ∧ Instr.rosterEmptyLimit id ∉ s.candidates))
  ∧ (∀ e : RosterEntry,
      (e.status = none → e.staleLimit = 3050 ∧ e.emptyLimit = 10000)
      ∧ (∀ p, e.status = some p →
          (p.period = 0 → e.staleLimit = 350 ∧ e.emptyLimit = 1000)
          ∧ (p.period = 1 → e.staleLimit = 800 ∧ e.emptyLimit = 2500)
          ∧ (p.period = 2 → e.staleLimit = 1550 ∧ e.emptyLimit = 5000)
          ∧ (p.period = 3 → e.staleLimit = 3050 ∧ e.emptyLimit = 10000)))

/-- The timers that end with one change (R41, R62, R63, R86, R92, R140): a peer's record lapses; hold-off, quiet period
and lockout window stop; the release interval ends in DETACHED; the status timer hands over a STATUS and starts again at
the own period. -/
def Obligations.PlainTimers : Prop :=
  ∀ s : State, s.power.phase = .run →
    (∀ r, s.closure.record = some r → r.expiry.isSome = true →
      ∃ t, exec .recordExpiry s = .next t ∧ EndOfCommand s { s with closure := { s.closure with record := none } } t)
    ∧ (s.closure.holdOff.isSome = true →
        ∃ t, exec .holdOffExpiry s = .next t ∧ EndOfCommand s { s with closure := { s.closure with holdOff := none } } t)
    ∧ (s.closure.quiet.isSome = true →
        ∃ t, exec .quietPeriodExpiry s = .next t ∧ EndOfCommand s { s with closure := { s.closure with quiet := none } } t)
    ∧ (s.fault.lockout.isSome = true →
        exec .lockoutWindowExpiry s = .next { s with fault := { s.fault with lockout := none } })
    ∧ (s.conn.state = .releasing → s.conn.release.isSome = true →
        ∃ u t, exec .releaseTimerExpiry s = .next t ∧ EndOfCommand s u t ∧ u.Entered .detached ∧ u.conn.release = none
          ∧ u.closure = s.closure ∧ u.fault = s.fault ∧ TouchesConnectionOnly s u)
    ∧ (s.conn.statusTimer.isSome = true →
        ∃ u t, exec .statusTimerExpiry s = .next t ∧ EndOfCommand s u t ∧ u.StatusHanded
          ∧ (s.committed = true →
              u.conn.statusTimer = some (statusPeriodMs (fieldNat s.config.statusPeriod)))
          ∧ u = { s with
              mbi := { s.mbi with list := u.mbi.list, heldStatus := u.mbi.heldStatus }
              conn := { s.conn with statusTimer := u.conn.statusTimer } })

/-- The claim timeout (R33, R55): every id still awaited is marked STALE, ABANDON(NO_ANSWER) is handed over and the claim
ends with outcome NO_ANSWER and hold-off, back in ISOLATED with the own record gone (R44). -/
def Obligations.ClaimTimeout : Prop :=
  ∀ (ids : List StationId) (timer : Nat) (v : Half) (s : State), s.power.phase = .run → s.conn.state = .claiming →
    s.closure.claim = some ⟨v, .awaiting ids timer⟩ →
    s.closure.record = some ⟨s.ownId, s.closure.claimNumber, none⟩ →
    ∃ u t, exec .claimTimerExpiry s = .next t ∧ EndOfCommand s u t
      ∧ u.ClaimFailed .noAnswer ∧ u.Handed (.abandon ⟨s.closure.claimNumber, 2⟩) ∧ u.closure.record = none
      ∧ (∀ id e, rosterGet id s.roster = some e →
          rosterGet id u.roster = some (if id ∈ ids then { e with state := .stale } else e))
      ∧ ((∃ id e, id ∈ ids ∧ rosterGet id s.roster = some e ∧ e.state ≠ .stale) → u.hasEvent .peerStale = true)
      ∧ TouchesConnectionOnly { s with roster := u.roster } u

/-- The settle end (R44, R79, R80, R132, R134). With no over-current source waiting for the end of the closing hold: CLOSED
is handed over with the claim's number and the latest Vbus, the own record clears, the closing hold is gone and the
station is CONNECTED with the path of the path sources; a source that the port holds as well stays HELD. With OC_DSG, OC_CHG
or both HELD by the closing hold alone the station trips instead, with each one's postponed action, and no CLOSED
follows. -/
def Obligations.SettleEnd : Prop :=
  ∀ s : State, s.power.phase = .run → s.conn.state = .closing → s.conn.settle.isSome = true →
    ((∀ oc, ¬ s.WaitsForClosingHold oc) →
      ∃ u t, exec .settleEnd s = .next t ∧ EndOfCommand s u t
        ∧ u.Entered .connected ∧ u.Handed (.closed ⟨s.closure.claimNumber, (s.meas.sample.map (·.vbus)).getD 0⟩)
        ∧ u.conn.path = (if s.fault.register.modOv.state = .active then .dischargeOnly
            else if s.fault.register.modUv.state = .active then .chargeOnly else .both)
        ∧ u.switches = s.switches ∧ u.conn.settle = none
        ∧ (∀ r, s.closure.record = some r → r.holder = s.ownId → u.closure.record = none)
        ∧ u.fault = { s.fault with closingHold := false } ∧ TouchesConnectionOnly s u)
    ∧ (∀ oc, s.WaitsForClosingHold oc →
      ∃ u t, exec .settleEnd s = .next t ∧ EndOfCommand s u t
        ∧ s.TripsPostponed oc u ∧ u.fault.closingHold = false
        ∧ s.fault.history.length ≤ u.fault.history.length ∧ (s.fault.tripCounter < 65535 →
            s.fault.tripCounter < u.fault.tripCounter)
        ∧ (∀ other, other = .ocDsg ∨ other = .ocChg → ¬ s.WaitsForClosingHold other →
            u.fault.register.get other = s.fault.register.get other)
        ∧ (s.mbi.list.all (fun f => decide (f.frame.kind ≠ .closed)) = true →
            u.mbi.list.all (fun f => decide (f.frame.kind ≠ .closed)) = true)
        ∧ KeepsSurroundings s u)

/-! ## Samples, charge and detection -/

/-- SAMPLE_COMPLETE (R95 to R97, R101): the record holds the inputs of its cycle, clamped at the edges of their ranges,
with the number one above the last one's; the next cycle starts; each counter gains the steps of its direction, and the
charge-in and charge-out counters stop at 4294967295 As with remainder 0. -/
def Obligations.SampleIsTaken : Prop :=
  ∀ (i : SampleInputs) (race : Race) (s : State), s.power.phase = .run → s.meas.cycleTimer.isSome = true →
    ∃ t x, exec (.sampleComplete i race) s = .next t ∧ t.meas = { sample := some x, cycleTimer := some 0 }
      ∧ x.vmod.toNat = min i.vms 65535 ∧ x.vbus.toNat = min i.vbs 65535
      ∧ x.current.toInt = max (-32768) (min 32767 i.isense) ∧ x.temp.toInt = max (-40) (min 125 i.ts)
      ∧ x.cycle = (match s.meas.sample with | some old => old.cycle + 1 | none => 1)
      ∧ t.charge.inAs * 25000 + t.charge.inRem
          = (if 0 < x.current.toInt then
              min (4294967295 * 25000) (s.charge.inAs * 25000 + s.charge.inRem + x.current.toInt.toNat)
            else s.charge.inAs * 25000 + s.charge.inRem)
      ∧ t.charge.outAs * 25000 + t.charge.outRem
          = (if x.current.toInt < 0 then
              min (4294967295 * 25000) (s.charge.outAs * 25000 + s.charge.outRem + (-x.current.toInt).toNat)
            else s.charge.outAs * 25000 + s.charge.outRem)
      ∧ t.power = s.power ∧ t.config = s.config ∧ t.committed = s.committed ∧ t.ownId = s.ownId
      ∧ t.roster = s.roster ∧ t.port.enables = s.port.enables ∧ t.port.response = s.port.response

/-- The accumulator at a sample (R102, R105, R106): while the level is valid it moves by the sample's steps, clamped to 0
and to the capacity; while it is invalid it does not move. After the commit the rest timer gains 4 ms, up to 30000 ms, or
becomes 0; at 30000 ms a module at or below the empty voltage, or else at or above the full voltage, is recalibrated. -/
def Obligations.AccumulatorFollowsTheSample : Prop :=
  ∀ (i : SampleInputs) (race : Race) (s : State), s.power.phase = .run → s.meas.cycleTimer.isSome = true →
    let n : Int := max (-32768) (min 32767 i.isense)
    let vmod := min i.vms 65535
    let rest := if n.natAbs < fieldNat s.config.restCurrent then min 30000 (s.charge.rest + 4) else 0
    let moved : Int := max 0 (min (s.config.capacityAs * 25000 : Nat)
      ((s.charge.accAs * 25000 + s.charge.accRem : Nat) + n))
    ∃ t, exec (.sampleComplete i race) s = .next t
      ∧ (s.committed = false → t.charge.rest = s.charge.rest)
      ∧ (s.committed = false ∨ rest < 30000
            ∨ 5 * fieldNat s.config.emptyVoltage < vmod ∧ vmod < 5 * fieldNat s.config.fullVoltage →
          t.charge.levelValid = s.charge.levelValid
            ∧ (s.charge.levelValid = true → ((t.charge.accAs * 25000 + t.charge.accRem : Nat) : Int) = moved)
            ∧ (s.charge.levelValid = false → t.charge.accAs = s.charge.accAs ∧ t.charge.accRem = s.charge.accRem)
            ∧ (s.committed = true → t.charge.rest = rest))
      ∧ (s.committed = true → rest = 30000 → vmod ≤ 5 * fieldNat s.config.emptyVoltage →
          t.charge.accAs = 0 ∧ t.charge.accRem = 0 ∧ t.charge.levelValid = true ∧ t.charge.rest = 0
            ∧ t.hasEvent .levelRecal = true)
      ∧ (s.committed = true → rest = 30000 → 5 * fieldNat s.config.emptyVoltage < vmod →
          5 * fieldNat s.config.fullVoltage ≤ vmod →
          t.charge.accAs = 360 * fieldNat s.config.capacity ∧ t.charge.accRem = 0 ∧ t.charge.levelValid = true
            ∧ t.charge.rest = 0 ∧ t.hasEvent .levelRecal = true)

/-- The over-current detectors at a judged sample (R113, R115): a run counts the samples above the limit, the condition
comes when the run reaches the run length and stays while the samples stay above, and one sample at or below the limit
ends the run and the condition. Before the commit no sample is judged. -/
def Obligations.OverCurrentRuns : Prop :=
  ∀ (i : SampleInputs) (race : Race) (s : State), s.power.phase = .run → s.meas.cycleTimer.isSome = true →
    let n : Int := max (-32768) (min 32767 i.isense)
    let runLength := fieldNat s.config.ocDetect / 4
    ∃ t, exec (.sampleComplete i race) s = .next t
      ∧ (s.committed = false → t.det = s.det)
      ∧ (s.committed = true →
          (n < -(100 * fieldNat s.config.ocDsgLimit : Nat) →
            (s.det.ocDsg = true → t.det.runDsg = s.det.runDsg ∧ t.det.ocDsg = true)
            ∧ (s.det.ocDsg = false →
                t.det.runDsg = s.det.runDsg + 1 ∧ t.det.ocDsg = decide (runLength ≤ s.det.runDsg + 1)))
          ∧ (-(100 * fieldNat s.config.ocDsgLimit : Nat) ≤ n → t.det.runDsg = 0 ∧ t.det.ocDsg = false)
          ∧ ((100 * fieldNat s.config.ocChgLimit : Nat) < n →
            (s.det.ocChg = true → t.det.runChg = s.det.runChg ∧ t.det.ocChg = true)
            ∧ (s.det.ocChg = false →
                t.det.runChg = s.det.runChg + 1 ∧ t.det.ocChg = decide (runLength ≤ s.det.runChg + 1)))
          ∧ (n ≤ (100 * fieldNat s.config.ocChgLimit : Nat) → t.det.runChg = 0 ∧ t.det.ocChg = false))

/-- The four conditions with a band at a judged sample (R120 to R123): each has its onset beyond its trip level, clears
beyond its release level, and keeps its previous value between the two, the edges included as the rules say. The release
of the bus over-voltage is the limit less one fiftieth, rounded down to 2 mV.
At every sample, judged or not, the conditions that have changed reach the Fault Unit as one handover (R112 to R114, R124):
every clearance first and then every onset, in the order TEMP_TRIP, BUS_OV, OC_DSG, OC_CHG, MOD_OV, MOD_UV, an onset with
the sample's T, Vbus, I or Vmod. The eligibility test of the sample is made after them or before them (R75, R97). -/
def Obligations.BandConditions : Prop :=
  (∀ (i : SampleInputs) (race : Race) (s : State), s.power.phase = .run → s.meas.cycleTimer.isSome = true →
    s.committed = true →
    let vmod := min i.vms 65535
    let vbus := min i.vbs 65535
    let temp : Int := max (-40) (min 125 i.ts)
    let limit := 5 * fieldNat s.config.busOvLimit
    ∃ t, exec (.sampleComplete i race) s = .next t
      ∧ t.det.modOv = (if s.det.modOv then decide (5 * fieldNat s.config.ovRelease ≤ vmod)
          else decide (5 * fieldNat s.config.ovTrip < vmod))
      ∧ t.det.modUv = (if s.det.modUv then decide (vmod ≤ 5 * fieldNat s.config.uvRelease)
          else decide (vmod < 5 * fieldNat s.config.uvTrip))
      ∧ t.det.tempTrip = (if s.det.tempTrip then decide ((s.config.tempRelease.getD 0).toInt < temp)
          else decide ((s.config.tempTrip.getD 0).toInt ≤ temp))
      ∧ t.det.busOv = (if s.det.busOv then decide (limit * 49 / 50 < vbus) else decide (limit < vbus))
      ∧ t.det.short = s.det.short ∧ t.det.shortArmed = s.det.shortArmed)
  ∧ (∀ (i : SampleInputs) (race : Race) (s : State), s.power.phase = .run → s.meas.cycleTimer.isSome = true →
    ∃ x v t, exec (.sampleComplete i race) s = .next t ∧ t.meas.sample = some x
      ∧ x.vmod.toNat = min i.vms 65535 ∧ x.vbus.toNat = min i.vbs 65535
      ∧ x.current.toInt = max (-32768) (min 32767 i.isense) ∧ x.temp.toInt = max (-40) (min 125 i.ts)
      ∧ v = { s with
          meas := t.meas
          charge := t.charge
          det := t.det
          mbi := { s.mbi with list := v.mbi.list, heldStatus := v.mbi.heldStatus }
          port := { s.port with events := v.port.events } }
      ∧ (race = .faultFirst → t = (reportSample x s.det t.det v).eligibilityTest.offer)
      ∧ (race = .controllerFirst → EndOfCommand s (reportSample x s.det t.det v.eligibilityTest) t))

/-- The short comparator (R117, R118, R124, R139): a current beyond its level, its condition absent, gives an onset at
once, which trips the station with the scope of the latest sample: BUS where its Vbus is below the dead-bus level. A
current below half the level ends the condition; anything between leaves it. -/
def Obligations.ShortComparator : Prop :=
  ∀ (current : Nat) (s : State), s.power.phase = .run →
    let code := fieldNat s.config.shortCode
    let level := if code = 0 then 5000 else if code = 1 then 10000 else if code = 2 then 20000 else 30000
    (s.det.shortArmed = true → s.det.short = false → level < current → s.committed = true →
      s.fault.register.short.state ≠ .held →
      ∃ u t r, exec (.shortOnset current) s = .next t ∧ EndOfCommand s u t
        ∧ u.det = { s.det with short := true } ∧ s.TakesTrip s.shortCause u
        ∧ u.fault.register.short = ⟨.active, true, some ((s.meas.sample.map (·.vbus)).getD 0)⟩
        ∧ u.HasTripped ∧ r ∈ u.fault.history ∧ r.code = .of .short ∧ r.connState = s.conn.state
        ∧ r.scope = (match s.meas.sample with
            | some x => if x.vbus.toNat < 5 * fieldNat s.config.deadBus then .bus else .localOnly
            | none => .localOnly)
        ∧ (r.scope = .bus → u.closure.record = none ∧ u.closure.quiet = some 1000)
        ∧ u.fault.lockout = some 10000 ∧ KeepsSurroundings s u)
    ∧ (s.det.shortArmed = false ∨ s.det.short = true ∨ current ≤ level →
        ∃ t, exec (.shortOnset current) s = .next t ∧ EndOfCommand s s t)
    ∧ (s.det.short = true → 2 * current < level →
        ∃ t, exec (.shortClearance current) s = .next t
          ∧ EndOfCommand s { s with
              det := { s.det with short := false }
              fault := { s.fault with register := { s.fault.register with
                short := if s.fault.register.short.state = .held then ⟨.lapsed, false, none⟩
                  else { s.fault.register.short with present := false } } } } t)
    ∧ (s.det.short = false ∨ level ≤ 2 * current → exec (.shortClearance current) s = .next s)

/-! ## Self-check, sleep and wake -/

/-- The end of a self-check that no wake waits for (R95, R163): PASSED or FAILED, the result, the check flag, CHECK_DONE,
conversion from 0; a STATUS where the self-check failed flag changes (R92), and where the check that the commit has started
fails, whatever the flag was before (R164, R170); else none. -/
def Obligations.SelfCheckEnds : Prop :=
  ∀ (failed : CheckItems) (s : State), s.power.phase = .run → s.power.check = .running → s.power.wakeCheck = false →
    let passed := !failed.converter && !failed.gates && !failed.store
    ∃ u t, exec (.selfCheckEnd failed) s = .next t ∧ EndOfCommand s u t
      ∧ u.power = { s.power with
          check := if passed then .passed else .failed
          checkTimer := none, checkResult := failed, checkFailed := !passed
          checkFlag := if passed then !s.power.checkFlag else s.power.checkFlag }
      ∧ u.meas = { s.meas with cycleTimer := some 0 } ∧ u.hasEvent .checkDone = true
      ∧ (s.power.checkFailed = passed ∨ s.power.commitCheck = true ∧ passed = false → u.StatusHanded)
      ∧ (s.power.checkFailed ≠ passed → s.power.commitCheck = false ∨ passed = true → u.mbi = s.mbi)
      ∧ u = { s with
          mbi := { s.mbi with list := u.mbi.list, heldStatus := u.mbi.heldStatus }
          meas := u.meas, power := u.power, port := { s.port with events := u.port.events } }

/-- The entry into SLEEP (R20, R37, R46, R61, R94, R99, R126, R150, R151, R153, R155): taken with the sleep pending, the
list empty, SSN high, no service reset waiting and no self-check running. It keeps exactly the keep-alive quantities, and
arms the wake-line detector, and the wake-current detector if committed; the wake-source latch is NONE. That the quantities
lost (the self-check state, the fault register, the hold-off, the status timer and the rest) stand at their wake values
during SLEEP is the model's choice: log entry 13 (DESIGN CHOICE). -/
def Obligations.SleepEntryKeepsTheKeepAliveDomain : Prop :=
  ∀ s : State, s.power.phase = .run → s.conn.sleepPending = true → s.mbi.list = [] → s.port.line = .released →
    s.port.resetPending = false → s.power.check ≠ .running →
    ∃ t, exec .sleepEntry s = .next t
      ∧ t.power.phase = .sleep ∧ t.power.latch = .none ∧ t.power.wakeLineArmed = true ∧ t.power.wakeLineRun = 0
      ∧ t.det.wakeCurrentArmed = s.committed ∧ t.det.shortArmed = false ∧ t.det.short = false
      ∧ t.mbi.bus = .off ∧ t.mbi.tec = 0 ∧ t.mbi.recCount = 0 ∧ t.mbi.list = []
      ∧ t.switches = { chg := false, dsg := false } ∧ t.chgGate = .off ∧ t.dsgGate = .off ∧ t.roster = []
      ∧ t.closure.record = none ∧ t.closure.claim = none ∧ t.closure.holdOff = none ∧ t.closure.quiet = none
      ∧ t.meas.sample = none ∧ t.meas.cycleTimer = none ∧ t.conn.sleepPending = false ∧ t.conn.statusTimer = none
      ∧ t.fault.register = FaultRegister.quiet ∧ t.fault.lockout = none ∧ t.fault.closingHold = false
      ∧ t.port.events = 0 ∧ t.port.enables = 0 ∧ t.power.check = .notRun ∧ t.power.checkFlag = s.power.checkFlag
      ∧ t.config = s.config ∧ t.committed = s.committed ∧ t.ownId = s.ownId
      ∧ t.mbi.permanentSilence = s.mbi.permanentSilence ∧ t.conn.joined = s.conn.joined
      ∧ t.fault.portHolds = s.fault.portHolds ∧ t.fault.tripCounter = s.fault.tripCounter
      ∧ t.fault.history = s.fault.history ∧ t.charge = s.charge

/-- The three wake sources (R125, R156 to R158): LINE goes to the power-up at once; CURRENT and PORT first drive MWK for
2 ms. The first is latched; in the wake sequence a further one is not, and the select of the port there meets WAKING. In
RUN the fall of SSN begins a transaction, in a reset it comes to nothing (R180). -/
def Obligations.WakeSources : Prop :=
  ∀ s : State,
    (s.power.phase = .sleep →
      (s.power.wakeLineArmed = true → ∃ t, exec .wakeLine s = .next t ∧ t.mwkDriven = false
        ∧ t = { s with power := { s.power with phase := .powerUp, latch := .line, wakeLineRun := 1 } })
      ∧ (∀ current : Nat, s.det.wakeCurrentArmed = true → fieldNat s.config.wakeCurrent < current →
          ∃ t, exec (.currentWake current) s = .next t ∧ t.mwkDriven = true
            ∧ t = { s with
                power := { s.power with phase := .wakePulse, latch := .current, pulseTimer := some 2 }
                det := { s.det with wakeCurrentRun := 8 } })
      ∧ (∀ c : Instr, c = .portWake ∨ c = .transactionBegin → ∃ t, exec c s = .next t ∧ t.mwkDriven = true
          ∧ t = { s with
              power := { s.power with phase := .wakePulse, latch := .port, pulseTimer := some 2 }
              port := { s.port with line := .openWaking, response := none } }))
    ∧ (s.power.phase = .wakePulse ∨ s.power.phase = .powerUp →
        (∀ c : Instr, c = .portWake ∨ c = .transactionBegin →
          exec c s = .next { s with port := { s.port with line := .openWaking, response := none } })
        ∧ exec .wakeLine s = .next s ∧ ∀ current : Nat, exec (.currentWake current) s = .next s)
    ∧ (s.power.phase = .run →
        exec .transactionBegin s = .next { s with port := { s.port with line := .openRun, response := none } })
    ∧ (s.power.phase = .unpowered ∨ s.power.phase = .powerOnReset ∨ s.power.phase = .pinReset
          ∨ s.power.phase = .serviceReset →
        exec .transactionBegin s = .next { s with port := { s.port with line := .openReset, response := none } })

/-- The wake sequence from the pulse to its end (R158 to R160, R163): the pulse gives way to the power-up; the main domain
comes up in RUN, DETACHED or ISOLATED by the joined flag, with the MBI OFF, the comparator armed if committed and the
self-check started; and the end of that check, passed or failed, releases the MBI, starts conversion, hold-off and, if
committed, the status timer, and sets the restarted flag, with a STATUS that carries it; on a pass the check flag inverts, and
the self-check failed flag follows the outcome (R163). That the flag is clear until then is log entry 42 (DESIGN CHOICE).
A current beyond the short level at the main domain's power-up is a SHORT that trips the station at once (R119); that the
restarted flag then stays clear at the end is log entry 18 (DEDUCED). -/
def Obligations.WakeSequence : Prop :=
  ∀ s : State,
    (s.power.phase = .wakePulse →
      exec .wakePulseEnd s = .next { s with power := { s.power with phase := .powerUp, pulseTimer := none } })
    ∧ (∀ current : Nat, s.power.phase = .powerUp → s.mbi.bus = .off →
        (s.committed = true → current ≤ shortOnsetLevel (fieldNat s.config.shortCode)) →
        ∃ t, exec (.mainDomainReady current) s = .next t
          ∧ t.power.phase = .run ∧ t.power.check = .running ∧ t.power.checkTimer = some 10
          ∧ t.power.commitCheck = false
          ∧ t.power.wakeCheck = true ∧ t.power.latch = s.power.latch
          ∧ t.conn.state = (if s.conn.joined then .isolated else .detached) ∧ t.conn.joined = s.conn.joined
          ∧ t.conn.path = .none ∧ t.conn.restarted = false ∧ t.switches = { chg := false, dsg := false }
          ∧ t.det.shortArmed = s.committed ∧ t.det.wakeCurrentArmed = false ∧ t.det.wakeCurrentRun = 0
          ∧ t.mbi = s.mbi ∧ t.port.events = 0 ∧ t.port.enables = 0 ∧ t.meas.cycleTimer = none
          ∧ t.config = s.config ∧ t.committed = s.committed ∧ t.charge = s.charge ∧ t.fault = s.fault)
    ∧ (∀ current : Nat, s.power.phase = .powerUp → s.mbi.bus = .off → s.committed = true →
        shortOnsetLevel (fieldNat s.config.shortCode) < current → s.fault.register.short.state ≠ .held →
        let ready : State := { s with conn := { s.conn with state := if s.conn.joined then .isolated else .detached } }
        ∃ u t, exec (.mainDomainReady current) s = .next t ∧ EndOfCommand s u t
          ∧ ready.TakesTrip s.shortCause u
          ∧ u.fault.register = { s.fault.register with
              short := ⟨.active, true, some ((s.meas.sample.map (·.vbus)).getD 0)⟩ }
          ∧ u.power.phase = .run ∧ u.power.check = .running ∧ u.power.checkTimer = some 10
          ∧ u.power.commitCheck = false
          ∧ u.power.wakeCheck = true ∧ u.power.latch = s.power.latch ∧ u.conn.joined = s.conn.joined
          ∧ u.conn.restarted = false ∧ u.det.shortArmed = true ∧ u.det.short = true ∧ u.det.wakeCurrentArmed = false
          ∧ u.conn.path = .none ∧ u.mbi.bus = .off ∧ (s.closure.claim = none → u.mbi = s.mbi) ∧ u.port.enables = 0
          ∧ u.meas.cycleTimer = none ∧ u.config = s.config ∧ u.committed = s.committed ∧ u.charge = s.charge
          ∧ u.roster = s.roster)
    ∧ (∀ failed : CheckItems, s.power.phase = .run → s.power.check = .running → s.power.wakeCheck = true →
        s.mbi.bus = .off → s.mbi.permanentSilence = false → s.mbi.tx = .none →
        let passed := !failed.converter && !failed.gates && !failed.store
        ∃ u t, exec (.selfCheckEnd failed) s = .next t ∧ EndOfCommand s u t
          ∧ u.mbi.bus = (if s.committed then .active else .listen) ∧ u.mbi.line = .unsynced
          ∧ u.meas.cycleTimer = some 0 ∧ u.closure.holdOff = some (100 + 20 * s.ownId.toNat)
          ∧ u.conn.statusTimer = (if s.committed then some (statusPeriodMs (fieldNat s.config.statusPeriod))
              else s.conn.statusTimer)
          ∧ u.conn.restarted = decide (s.conn.state = .detached ∨ s.conn.state = .isolated)
          ∧ u.conn.state = s.conn.state ∧ u.StatusHanded
          ∧ u.power = { s.power with
              check := if passed then .passed else .failed
              checkTimer := none, checkResult := failed, checkFailed := !passed
              checkFlag := if passed then !s.power.checkFlag else s.power.checkFlag
              wakeCheck := false }
          ∧ u.hasEvent .checkDone = true ∧ u.switches = s.switches ∧ u.fault = s.fault ∧ u.roster = s.roster)

/-! ## The service port -/

/-- The reads (R36, R69, R99, R107, R145, R180 to R182) answer DONE with the bytes that the tables of R195 lay out whenever
the part runs, a self-check or not, and change nothing else; ROSTER_READ refuses an id above 15. The layouts stand in
Safety.lean. Their lengths are those of R194. That a four-byte field goes most significant byte first is the model's
choice: log entry 40 (DESIGN CHOICE).
What SDO then carries (R177, R178): 0 in the command and argument bytes, the result code, the data, and 0 beyond the data;
0 while no response has been given; nothing with SSN high or in a transaction that a reset has met. -/
def Obligations.Reads : Prop :=
  (∀ s : State, s.PortJudges →
    let answers (c : Instr) (r : Result) (bytes : List Byte) : Prop :=
      exec c s = .next { s with port := { s.port with response := some ⟨r, bytes⟩ } }
    answers .statusRead .done s.statusLayout ∧ s.statusLayout.length = 11
    ∧ answers .sampleRead .done s.sampleLayout ∧ s.sampleLayout.length = 12
    ∧ answers .faultRead .done s.faultLayout ∧ s.faultLayout.length = 35
    ∧ answers .historyRead .done s.historyLayout ∧ s.historyLayout.length = 47
    ∧ answers .countersRead .done s.countersLayout ∧ s.countersLayout.length = 20
    ∧ answers .closureRead .done s.closureLayout ∧ s.closureLayout.length = 32
    ∧ (∀ id : Byte, id.toNat < 16 →
        answers (.rosterRead id) .done (s.rosterLayout (id.extractLsb' 0 4))
          ∧ (s.rosterLayout (id.extractLsb' 0 4)).length = 14)
    ∧ (∀ id : Byte, 16 ≤ id.toNat → answers (.rosterRead id) .refusedValue []))
  ∧ (∀ (c : Instr) (code : Byte) (arguments : List Byte) (n : Nat) (s : State),
      c.wf = true → encodePort c = some (code :: arguments) →
      (s.port.line = .released ∨ s.port.line = .openReset → s.sdoByte code n = none)
      ∧ (s.port.line = .openRun ∨ s.port.line = .openWaking →
          (s.port.response = none → s.sdoByte code n = some 0)
          ∧ (∀ r data, s.port.response = some ⟨r, data⟩ → s.sdoByte code n = some (
              if n < arguments.length + 1 then 0
              else if n = arguments.length + 1 then
                (match r with
                | .done => 0 | .refusedState => 1 | .refusedValue => 2 | .refusedCondition => 3 | .waking => 4)
              else data.getD (n - (arguments.length + 2)) 0))))

/-- IDENT (R183): vendor code 87, part code 16, revision 3 and the own id as it is held, which is the one read from the
straps at the last power-on or pin reset and which no other command of a powered part changes. -/
def Obligations.IdentReturnsTheHeldId : Prop :=
  (∀ s : State, s.PortJudges →
    exec .ident s = .next { s with port := { s.port with response := some ⟨.done, [87, 16, 3, s.ownId.setWidth 8]⟩ } })
  ∧ (∀ (straps : StationId) (s t : State), s.power.phase = .unpowered ∨ s.power.phase = .powerOnReset →
      exec (.powerOnResetEnd straps) s = .next t → t.ownId = straps)
  ∧ (∀ (straps : StationId) (current : Nat) (s t : State), s.power.phase = .pinReset →
      exec (.pinResetEnd straps current) s = .next t → t.ownId = straps)
  ∧ (∀ (c : Instr) (s t : State), (∀ straps, c ≠ .powerOnResetEnd straps) →
      (∀ straps current, c ≠ .pinResetEnd straps current) → c ≠ .vkaLoss → exec c s = .next t → t.ownId = s.ownId)

/-- EVENT_CLEAR (R186): taken in RUN, a self-check or not, it answers DONE with the status as it stood and clears the
events that its mask names, and no others. -/
def Obligations.EventClear : Prop :=
  ∀ (mask : Half) (s : State), s.PortJudges →
    ∃ t, exec (.eventClear mask) s = .next t
      ∧ t = { s with port := { s.port with
          events := t.port.events
          response := some ⟨.done, [(s.port.events.setWidth 16).extractLsb' 8 8,
            (s.port.events.setWidth 16).extractLsb' 0 8]⟩ } }
      ∧ ∀ e : Event, t.hasEvent e = (s.hasEvent e && !mask.getLsbD e.number)

/-- EVENT_ENABLE (R187, R188): taken in RUN, a self-check or not, it answers DONE, writes the enables whole and changes no
event; ALERT is driven low exactly while an event is both set and enabled, so enabling one that is set asserts it and
disabling the last one releases it. -/
def Obligations.EventEnable : Prop :=
  ∀ (mask : Half) (s : State), s.PortJudges →
    ∃ t, exec (.eventEnable mask) s = .next t
      ∧ t = { s with port := { s.port with enables := t.port.enables, response := some ⟨.done, []⟩ } }
      ∧ (∀ e : Event, t.port.enables.getLsbD e.number = mask.getLsbD e.number)
      ∧ (∀ e : Event, t.hasEvent e = s.hasEvent e)
      ∧ (t.alertLow = true ↔ ∃ e : Event, s.hasEvent e = true ∧ mask.getLsbD e.number = true)

/-- Where requests are not judged (R156, R162, R178, R180): while a self-check runs every request is refused with
REFUSED_STATE and no effect, and a CONFIG_COMMIT's refusal carries two bytes of 0 (log entry 17, DESIGN CHOICE); an unknown
command code is refused with REFUSED_VALUE, with a self-check running too (log entry 16, DEDUCED). A transaction begun
in SLEEP or in the wake sequence before the main domain is up is answered WAKING with no effect, in RUN too if it is taken
there; in a reset, and in a transaction that a reset has met, nothing happens; and in a transaction that has had its
response a second command does nothing. With SSN high a command of the port stands for its transaction, so that SSN falls
first, which in SLEEP starts the wake (log entry 15, DESIGN CHOICE). -/
def Obligations.RequestsNotJudged : Prop :=
  (∀ (c : Instr) (s : State), s.PortJudges → s.power.check = .running →
    ((∃ f v, c = .configWrite f v) ∨ c = .join ∨ c = .leave ∨ c = .sleep ∨ c = .ackTrip ∨ (∃ m, c = .setHolds m)
      ∨ (∃ m, c = .clearFaults m) ∨ c = .check ∨ c = .serviceReset) →
    exec c s = .next { s with port := { s.port with response := some ⟨.refusedState, []⟩ } })
  ∧ (∀ (current : Nat) (s : State), s.PortJudges → s.power.check = .running →
      exec (.configCommit current) s
        = .next { s with port := { s.port with response := some ⟨.refusedState, [0, 0]⟩ } })
  ∧ (∀ (code : Byte) (s : State), s.PortJudges → (Instr.unknownCommand code).wf = true →
      exec (.unknownCommand code) s
        = .next { s with port := { s.port with response := some ⟨.refusedValue, []⟩ } })
  ∧ (∀ (c : Instr) (bytes : List Byte) (s : State), c.wf = true → encodePort c = some bytes →
      (s.port.line = .openWaking → s.port.response = none →
        s.power.phase = .run ∨ s.power.phase = .sleep ∨ s.power.phase = .wakePulse ∨ s.power.phase = .powerUp →
        exec c s = .next { s with port := { s.port with response := some ⟨.waking, []⟩ } })
      ∧ (s.port.line = .openReset → exec c s = .next s)
      ∧ (s.port.line ≠ .released →
          s.power.phase = .unpowered ∨ s.power.phase = .powerOnReset ∨ s.power.phase = .pinReset
            ∨ s.power.phase = .serviceReset → exec c s = .next s)
      ∧ (s.port.line ≠ .released → s.port.response.isSome = true → exec c s = .next s)
      ∧ (s.port.line = .released → ∀ u, exec .transactionBegin s = .next u → exec c s = exec c u)
      ∧ (s.port.line = .released → s.power.phase = .sleep →
          exec c s = .next { s with
            power := { s.power with phase := .wakePulse, latch := .port, pulseTimer := some 2 }
            port := { s.port with line := .openWaking, response := some ⟨.waking, []⟩ } }))

/-- CONFIG_WRITE (R166, R167): refused with REFUSED_STATE once committed; before, a value in its field's range sets that
field and no other, an initial level of 255 leaves field 22 unset, and any other value or field is refused with
REFUSED_VALUE. The ranges of all 22 fields are those of R166 in the counts of R194: field 11 takes multiples of 4 only,
fields 13 and 14 are signed. -/
def Obligations.ConfigWrite : Prop :=
  ∀ (field : Byte) (value : Half) (s : State),
    (s.TakesRequests →
      let answer (r : Result) (config : ConfigRecord) : Answer :=
        .next { s with config := config, port := { s.port with response := some ⟨r, []⟩ } }
      (s.committed = true → exec (.configWrite field value) s = answer .refusedState s.config)
      ∧ (s.committed = false → fieldAccepts field.toNat value = false →
          exec (.configWrite field value) s = answer .refusedValue s.config)
      ∧ (s.committed = false → fieldAccepts field.toNat value = true →
          exec (.configWrite field value) s = answer .done (s.config.setField field.toNat
            (if field = 22 ∧ value = 255 then none else some value))))
    ∧ (∀ (n : Nat) (v : Option Half) (c : ConfigRecord), 1 ≤ n → n ≤ 22 →
        (c.setField n v).fields = c.fields.set (n - 1) v)
    ∧ (let between (lo hi : Nat) : Bool := decide (lo ≤ value.toNat ∧ value.toNat ≤ hi)
       (22 < field.toNat ∨ field = 0 → fieldAccepts field.toNat value = false)
       ∧ fieldAccepts 1 value = between 1 65535
       ∧ fieldAccepts 2 value = between 1 500
       ∧ fieldAccepts 3 value = between 50 2000
       ∧ fieldAccepts 4 value = between 500 13000
       ∧ fieldAccepts 5 value = between 100 13000 ∧ fieldAccepts 6 value = between 100 13000
       ∧ fieldAccepts 7 value = between 100 13000 ∧ fieldAccepts 8 value = between 100 13000
       ∧ fieldAccepts 9 value = between 1 300 ∧ fieldAccepts 10 value = between 1 300
       ∧ fieldAccepts 11 value = (between 8 1020 && decide (value.toNat % 4 = 0))
       ∧ fieldAccepts 12 value = between 0 3
       ∧ fieldAccepts 13 value = decide (-60 ≤ value.toInt ∧ value.toInt ≤ 150)
       ∧ fieldAccepts 14 value = decide (-60 ≤ value.toInt ∧ value.toInt ≤ 150)
       ∧ fieldAccepts 15 value = between 0 3
       ∧ fieldAccepts 16 value = between 0 15
       ∧ fieldAccepts 17 value = between 0 3
       ∧ fieldAccepts 18 value = between 100 13000 ∧ fieldAccepts 19 value = between 100 13000
       ∧ fieldAccepts 20 value = between 10 1000
       ∧ fieldAccepts 21 value = between 10 500
       ∧ fieldAccepts 22 value = (between 0 200 || decide (value.toNat = 255)))

/-- CONFIG_COMMIT (R104, R119, R169, R170): refused once committed; refused with the number of the first test that fails
and the field that it names; accepted, the configuration is committed, LISTEN gives way to ACTIVE, an initial level that
was written is applied, the comparator is armed, the status timer runs, and the self-check starts.
Where BUS_SILENT or RX_DEGRADED is present already its onset is taken at that moment with TEC or REC as its value, and a
current beyond the short level gives a SHORT at the arming (R119, R129, R170): each is a trip of its own within the commit,
and the later steps stand. The two sources are CLEAR, with no port hold, as before every commit (R129); the order of the
three trips is log entry 19 (DEDUCED).
The tests are, in their order, the lowest-numbered unset field of 1 to 21 with REFUSED_CONDITION, then the comparisons 2 to
8 of R169, each with REFUSED_VALUE and the field it names; the first that fails gives the answer. That a refusal once
committed carries two bytes of 0 is log entry 17 (DESIGN CHOICE). -/
def Obligations.ConfigCommit : Prop :=
  (∀ (current : Nat) (s : State), s.TakesRequests →
      (s.committed = true → exec (.configCommit current) s
        = .next { s with port := { s.port with response := some ⟨.refusedState, [0, 0]⟩ } })
      ∧ (∀ result test field, s.committed = false → s.config.commitFailure = some (result, test, field) →
          exec (.configCommit current) s = .next { s with port := { s.port with
            response := some ⟨result, [BitVec.ofNat 8 test, BitVec.ofNat 8 field]⟩ } })
      ∧ (s.committed = false → s.config.commitFailure = none →
          s.fault.register.busSilent.present = false → s.fault.register.rxDegraded.present = false →
          current ≤ shortOnsetLevel (fieldNat s.config.shortCode) →
          ∃ u t, exec (.configCommit current) s = .next t ∧ EndOfCommand s u t
            ∧ u.committed = true ∧ u.config = s.config
            ∧ u.mbi.bus = (if s.mbi.bus = .listen then .active else s.mbi.bus)
            ∧ (∀ v, s.config.initialLevel = some v →
                u.charge.accAs = v.toNat * (360 * fieldNat s.config.capacity) / 200 ∧ u.charge.accRem = 0
                  ∧ u.charge.levelValid = true)
            ∧ (s.config.initialLevel = none → u.charge = s.charge)
            ∧ u.det.shortArmed = true ∧ u.det.short = false
            ∧ u.conn.statusTimer = some (statusPeriodMs (fieldNat s.config.statusPeriod)) ∧ u.StatusHanded
            ∧ u.power.check = .running ∧ u.power.checkTimer = some 10 ∧ u.power.commitCheck = true
            ∧ u.meas.cycleTimer = none
            ∧ u.port.response = some ⟨.done, []⟩ ∧ u.conn.state = s.conn.state ∧ u.fault = s.fault
            ∧ u.roster = s.roster ∧ u.closure = s.closure ∧ u.switches = s.switches ∧ u.ownId = s.ownId)
      ∧ (s.committed = false → s.config.commitFailure = none →
          s.fault.register.busSilent.state = .clear → s.fault.portHolds.getLsbD 8 = false →
          s.fault.register.rxDegraded.state = .clear → s.fault.portHolds.getLsbD 9 = false →
          s.fault.register.short.state ≠ .held →
          let level := shortOnsetLevel (fieldNat s.config.shortCode)
          let begun : State := { s with
            committed := true
            mbi := { s.mbi with bus := if s.mbi.bus = .listen then .active else s.mbi.bus }
            det := { s.det with shortArmed := true, short := false }
            charge := match s.config.initialLevel with
              | none => s.charge
              | some v => { s.charge with
                  accAs := v.toNat * (360 * fieldNat s.config.capacity) / 200, accRem := 0, levelValid := true } }
          let tec : Half := BitVec.ofNat 16 s.mbi.tec
          let rx : Half := BitVec.ofNat 16 s.mbi.recCount
          ∃ a b u t, exec (.configCommit current) s = .next t ∧ EndOfCommand s u t
            ∧ (s.fault.register.busSilent.present = true → begun.TakesTrip (Source.busSilent.cause tec .localOnly) a
                ∧ u.fault.register.busSilent = ⟨.active, true, some tec⟩)
            ∧ (s.fault.register.busSilent.present = false →
                a = begun ∧ u.fault.register.busSilent = s.fault.register.busSilent)
            ∧ (s.fault.register.rxDegraded.present = true → a.TakesTrip (Source.rxDegraded.cause rx .localOnly) b
                ∧ u.fault.register.rxDegraded = ⟨.active, true, some rx⟩)
            ∧ (s.fault.register.rxDegraded.present = false →
                b = a ∧ u.fault.register.rxDegraded = s.fault.register.rxDegraded)
            ∧ (level < current → b.TakesTrip s.shortCause u ∧ u.det.short = true
                ∧ u.fault.register.short = ⟨.active, true, some ((s.meas.sample.map (·.vbus)).getD 0)⟩)
            ∧ (current ≤ level → u.fault = b.fault ∧ u.conn.state = b.conn.state ∧ u.closure = b.closure
                ∧ u.switches = b.switches ∧ u.det.short = false ∧ u.fault.register.short = s.fault.register.short)
            ∧ u.committed = true ∧ u.config = s.config ∧ u.mbi.bus = begun.mbi.bus ∧ u.charge = begun.charge
            ∧ u.det.shortArmed = true
            ∧ u.conn.statusTimer = some (statusPeriodMs (fieldNat s.config.statusPeriod)) ∧ u.StatusHanded
            ∧ u.power.check = .running ∧ u.power.checkTimer = some 10 ∧ u.power.commitCheck = true
            ∧ u.meas.cycleTimer = none
            ∧ u.port.response = some ⟨.done, []⟩ ∧ u.conn.joined = s.conn.joined
            ∧ u.roster = s.roster ∧ u.ownId = s.ownId))
  ∧ (∀ c : ConfigRecord,
      ((∃ f ∈ c.required, f = none) → ∃ n, c.commitFailure = some (.refusedCondition, 1, n)
        ∧ c.required[n - 1]? = some none ∧ 1 ≤ n ∧ ∀ m, m + 1 < n → ∀ f, c.required[m]? = some f → f ≠ none)
      ∧ ((∀ f ∈ c.required, f ≠ none) →
          let tests : List (Bool × Nat × Nat) :=
            [(decide (fieldNat c.ovRelease < fieldNat c.ovTrip), 2, 6),
              (decide (fieldNat c.uvTrip < fieldNat c.uvRelease), 3, 8),
              (decide (fieldNat c.uvTrip < fieldNat c.ovTrip), 4, 7),
              (decide (fieldNat c.emptyVoltage < fieldNat c.fullVoltage), 5, 18),
              (decide ((c.tempRelease.getD 0).toInt + 5 ≤ (c.tempTrip.getD 0).toInt), 6, 14),
              (decide (fieldNat c.deadBus < fieldNat c.busOvLimit), 7, 3),
              (decide (fieldNat c.settleCode ≤ 5), 8, 16)]
          c.commitFailure = (tests.find? fun test => !test.1).map fun test => (.refusedValue, test.2.1, test.2.2)))
  ∧ (∀ c : ConfigRecord, c.required = c.fields.take 21)

/-- JOIN and LEAVE (R58, R71, R72, R83 to R85, R154): JOIN is taken in DETACHED once committed and leads to ISOLATED; LEAVE
is taken in ISOLATED and CLAIMING, which lead to DETACHED, and in CLOSING and CONNECTED, which lead to RELEASING with the
switches open and the release interval of 2 ms running; in any other state each is refused. In CLOSING the closing hold is
removed as well, and an over-current source that it alone held HELD then trips the station from RELEASING (R84, R132); one
that the port holds too stays HELD. -/
def Obligations.JoinAndLeave : Prop :=
  ∀ s : State, s.TakesRequests →
    let refused : State := { s with port := { s.port with response := some ⟨.refusedState, []⟩ } }
    (s.committed = true → s.conn.state = .detached →
      ∃ u t, exec .join s = .next t ∧ EndOfCommand s u t ∧ u.conn.joined = true ∧ u.conn.sleepPending = false
        ∧ u.Entered .isolated ∧ u.port.response = some ⟨.done, []⟩ ∧ u.fault = s.fault ∧ u.closure = s.closure
        ∧ (s.conn.sleepPending = true → u.hasEvent .sleepCancelled = true))
    ∧ (s.committed = false ∨ s.conn.state ≠ .detached → exec .join s = .next refused)
    ∧ (s.conn.state = .isolated ∨ s.conn.state = .claiming →
        ∃ u t, exec .leave s = .next t ∧ EndOfCommand s u t ∧ u.conn.joined = false ∧ u.conn.sleepPending = false
          ∧ u.Entered .detached ∧ u.port.response = some ⟨.done, []⟩ ∧ u.fault = s.fault
          ∧ (∀ c, s.conn.state = .claiming → s.closure.claim = some c →
              u.closure.claim = none ∧ u.closure.lastOutcome = .leave
              ∧ (c.phase ≠ .queued → u.Handed (.abandon ⟨s.closure.claimNumber, 4⟩))
              ∧ (c.phase = .queued → s.mbi.onLine = some .claim → u.mbi.withdrawal = some .leave)
              ∧ (c.phase = .queued → s.mbi.onLine ≠ some .claim →
                  hasKind .claim u.mbi.list = hasKind .claim (removeKind .claim s.mbi.list))))
    ∧ (∀ oc, s.conn.state = .closing → s.WaitsForClosingHold oc →
        ∃ u t, exec .leave s = .next t ∧ EndOfCommand s u t ∧ s.TripsPostponed oc u ∧ u.conn.state = .tripped
          ∧ u.conn.joined = false ∧ u.conn.release = none ∧ u.conn.settle = none ∧ u.fault.closingHold = false
          ∧ u.Handed (.abandon ⟨s.closure.claimNumber, 4⟩) ∧ u.port.response = some ⟨.done, []⟩
          ∧ (s.fault.tripCounter < 65535 → s.fault.tripCounter < u.fault.tripCounter))
    ∧ (s.conn.state = .closing → (∀ oc, ¬ s.WaitsForClosingHold oc) →
        ∃ u t, exec .leave s = .next t ∧ EndOfCommand s u t ∧ u.conn.joined = false ∧ u.Entered .releasing
          ∧ u.conn.release = some 2 ∧ u.conn.settle = none ∧ u.fault = { s.fault with closingHold := false }
          ∧ u.Handed (.abandon ⟨s.closure.claimNumber, 4⟩) ∧ u.port.response = some ⟨.done, []⟩)
    ∧ (s.conn.state = .connected →
        ∃ u t, exec .leave s = .next t ∧ EndOfCommand s u t ∧ u.conn.joined = false ∧ u.Entered .releasing
          ∧ u.conn.release = some 2 ∧ u.Handed .release ∧ u.port.response = some ⟨.done, []⟩ ∧ u.fault = s.fault)
    ∧ (s.conn.state = .detached ∨ s.conn.state = .releasing ∨ s.conn.state = .tripped ∨ s.conn.state = .lockout →
        exec .leave s = .next refused)

/-- SLEEP, CHECK and SERVICE_RESET (R152, R162, R175): SLEEP is taken in DETACHED and ISOLATED with no source ACTIVE, sets
the sleep-pending flag and hands over a STATUS; CHECK is taken in DETACHED, ISOLATED, TRIPPED and LOCKOUT with no sleep
pending and starts the self-check; SERVICE_RESET waits for the release of SSN. -/
def Obligations.SleepCheckServiceReset : Prop :=
  ∀ s : State, s.TakesRequests →
    let answer (r : Result) : State := { s with port := { s.port with response := some ⟨r, []⟩ } }
    let resting := s.conn.state = .detached ∨ s.conn.state = .isolated
    (resting → (∀ src : Source, (s.fault.register.get src).state ≠ .active) → s.conn.sleepPending = false →
      ∃ u t, exec .sleep s = .next t ∧ EndOfCommand s u t ∧ u.StatusHanded
        ∧ u.mbi = { s.mbi with list := u.mbi.list, heldStatus := u.mbi.heldStatus }
        ∧ u = { s with
            conn := { s.conn with sleepPending := true }
            mbi := u.mbi
            port := { s.port with response := some ⟨.done, []⟩ } })
    ∧ (resting → (∀ src : Source, (s.fault.register.get src).state ≠ .active) → s.conn.sleepPending = true →
        exec .sleep s = .next (answer .done))
    ∧ (resting → (∃ src : Source, (s.fault.register.get src).state = .active) →
        exec .sleep s = .next (answer .refusedCondition))
    ∧ (¬ resting → exec .sleep s = .next (answer .refusedState))
    ∧ (resting ∨ s.conn.state = .tripped ∨ s.conn.state = .lockout → s.conn.sleepPending = false →
        ∃ t, exec .check s = .next t ∧ EndOfCommand s { s with
          meas := { s.meas with cycleTimer := none }
          power := { s.power with
            check := .running, checkTimer := some 10, checkResult := ⟨false, false, false⟩, commitCheck := false }
          port := { s.port with response := some ⟨.done, []⟩ } } t)
    ∧ (s.conn.sleepPending = true ∨ s.conn.state = .claiming ∨ s.conn.state = .closing ∨ s.conn.state = .connected
          ∨ s.conn.state = .releasing → exec .check s = .next (answer .refusedState))
    ∧ exec .serviceReset s
        = .next { s with port := { s.port with resetPending := true, response := some ⟨.done, []⟩ } }

/-- ACK_TRIP (R62, R146): taken in TRIPPED; refused with REFUSED_CONDITION while an ACTIVE trip source's condition is
present or both path sources are ACTIVE; otherwise every ACTIVE trip source becomes CLEAR and the station goes to ISOLATED
with hold-off, or to DETACHED, by the joined flag. In any other state it is refused. -/
def Obligations.TripAcknowledgement : Prop :=
  ∀ s : State, s.TakesRequests →
    let stands := (∃ src : Source, src.isTrip = true ∧ (s.fault.register.get src).state = .active
        ∧ (s.fault.register.get src).present = true)
      ∨ (s.fault.register.modOv.state = .active ∧ s.fault.register.modUv.state = .active)
    (s.conn.state ≠ .tripped →
      exec .ackTrip s = .next { s with port := { s.port with response := some ⟨.refusedState, []⟩ } })
    ∧ (s.conn.state = .tripped → stands →
        exec .ackTrip s = .next { s with port := { s.port with response := some ⟨.refusedCondition, []⟩ } })
    ∧ (s.conn.state = .tripped → ¬ stands →
        ∃ u t, exec .ackTrip s = .next t ∧ EndOfCommand s u t
          ∧ (∀ src : Source, u.fault.register.get src
              = if src.isTrip = true ∧ (s.fault.register.get src).state = .active then ⟨.clear, false, none⟩
                else s.fault.register.get src)
          ∧ (s.conn.joined = true → u.Entered .isolated
              ∧ u.closure.holdOff = some (100 + 20 * s.ownId.toNat))
          ∧ (s.conn.joined = false → u.Entered .detached ∧ u.closure.holdOff = s.closure.holdOff)
          ∧ u.fault = { s.fault with register := u.fault.register } ∧ u.port.response = some ⟨.done, []⟩
          ∧ u.charge = s.charge ∧ u.roster = s.roster ∧ u.config = s.config)

/-- SET_HOLDS and CLEAR_FAULTS (R133, R147): refused before the commit; a hold mask that names a class A source is refused
with REFUSED_VALUE; otherwise the mask is written whole, and nothing more happens while no source left without a hold is
HELD. A HELD source whose last hold the mask removes has its postponed action (R132): a trip source trips the station with
the value it kept; a path source opens its switch, or trips the station with PATH_CONFLICT where the opposite one is
ACTIVE (R137). CLEAR_FAULTS makes the LAPSED sources of its mask CLEAR and no others. -/
def Obligations.HoldsAndFaults : Prop :=
  ∀ (mask : Half) (s : State), s.TakesRequests →
    let answer (r : Result) : State := { s with port := { s.port with response := some ⟨r, []⟩ } }
    (s.committed = false →
      exec (.setHolds mask) s = .next (answer .refusedState)
        ∧ exec (.clearFaults mask) s = .next (answer .refusedState))
    ∧ (s.committed = true → mask.extractLsb' 0 4 ≠ 0 → exec (.setHolds mask) s = .next (answer .refusedValue))
    ∧ (s.committed = true → mask.extractLsb' 0 4 = 0 →
        (∀ src : Source, (s.fault.register.get src).state = .held → mask.getLsbD (src.code - 1) = true) →
        ∃ t, exec (.setHolds mask) s = .next t ∧ EndOfCommand s { s with
          fault := { s.fault with portHolds := mask.extractLsb' 0 10 }
          port := { s.port with response := some ⟨.done, []⟩ } } t)
    ∧ (∀ src : Source, s.committed = true → mask.extractLsb' 0 4 = 0 → src.classB = true →
        (s.fault.register.get src).state = .held → mask.getLsbD (src.code - 1) = false →
        (src = .ocDsg ∨ src = .ocChg → s.fault.closingHold = false) →
        (∀ other : Source, other ≠ src → (s.fault.register.get other).state ≠ .held) →
        ∃ u t, exec (.setHolds mask) s = .next t ∧ EndOfCommand s u t
          ∧ u.fault.register.get src = { s.fault.register.get src with state := .active }
          ∧ (∀ other : Source, other ≠ src → u.fault.register.get other = s.fault.register.get other)
          ∧ u.conn.sleepPending = false
          ∧ u.fault.portHolds = mask.extractLsb' 0 10 ∧ u.port.response = some ⟨.done, []⟩
          ∧ (src.isTrip = true → s.TripsPostponed src u)
          ∧ (∀ opposite, (src = .modOv ∧ opposite = .modUv ∨ src = .modUv ∧ opposite = .modOv) →
              ((s.fault.register.get opposite).state = .active →
                u.HasTripped ∧ ∃ r, r ∈ u.fault.history ∧ r.code = .pathConflict ∧ r.source = src
                  ∧ r.value = (s.fault.register.get src).value.getD 0 ∧ r.scope = .localOnly)
              ∧ ((s.fault.register.get opposite).state ≠ .active →
                u.conn.state = s.conn.state ∧ u.fault.tripCounter = s.fault.tripCounter
                  ∧ (s.conn.state = .closing ∨ s.conn.state = .connected →
                      u.switches = { chg := decide (src ≠ .modOv), dsg := decide (src ≠ .modUv) })
                  ∧ (s.conn.state = .connected →
                      u.conn.path = if src = .modOv then .dischargeOnly else .chargeOnly))))
    ∧ (s.committed = true →
        ∃ u t, exec (.clearFaults mask) s = .next t ∧ EndOfCommand s u t
          ∧ (∀ src : Source, u.fault.register.get src
              = if mask.getLsbD (src.code - 1) = true ∧ (s.fault.register.get src).state = .lapsed then
                  { s.fault.register.get src with state := .clear }
                else s.fault.register.get src)
          ∧ u = { s with
              mbi := { s.mbi with list := u.mbi.list, heldStatus := u.mbi.heldStatus }
              fault := { s.fault with register := u.fault.register }
              port := { s.port with response := some ⟨.done, []⟩ } })

/-! ## Faults, trips and claims -/

/-- What a clearance does by the state of its source (R131): HELD becomes LAPSED and its value is dropped; an ACTIVE path
source becomes CLEAR, its value dropped, and the switches of CLOSING and CONNECTED follow the path sources again; an
ACTIVE trip source stays ACTIVE, and a CLEAR source CLEAR, with the condition absent. -/
def Obligations.ClearanceTable : Prop :=
  ∀ (src : Source) (s : State),
    let x := s.fault.register.get src
    let u := s.takeClearance src
    (x.state = .held → u.fault.register.get src = ⟨.lapsed, false, none⟩)
    ∧ (x.state = .active → src.isPath = true →
        u.fault.register.get src = ⟨.clear, false, none⟩
          ∧ (s.conn.state = .closing ∨ s.conn.state = .connected →
              u.switches = { chg := decide (u.fault.register.modOv.state ≠ .active),
                             dsg := decide (u.fault.register.modUv.state ≠ .active) })
          ∧ (s.conn.state = .connected → u.conn.path = (if u.fault.register.modOv.state = .active then .dischargeOnly
              else if u.fault.register.modUv.state = .active then .chargeOnly else .both)))
    ∧ (x.state = .active → src.isPath = false → u.fault.register.get src = { x with present := false })
    ∧ (x.state = .clear → u.fault.register.get src = { x with present := false })
    ∧ (∀ other : Source, other ≠ src → u.fault.register.get other = s.fault.register.get other)
    ∧ u.fault = { s.fault with register := u.fault.register } ∧ u.conn.state = s.conn.state
    ∧ u.closure = s.closure ∧ u.roster = s.roster ∧ u.charge = s.charge

/-- What an onset does by the state of its source and its holds (R127 to R130, R136, R137): before the commit only the condition
is noted, but for DUP_ID; a CLEAR or LAPSED source becomes HELD with HELD_FAULT where a hold covers it, and else ACTIVE
with its value and its action: a trip for a trip source and for DUP_ID, the open switch for a path source, or a trip where
the opposite one is ACTIVE. An onset of an ACTIVE trip source takes the trip again; DUP_ID while ACTIVE changes nothing.
Each trip is the one of its description (R127, R138, R140, R141): scope BUS for BUS_OV, the reported scope for SHORT and
LOCAL for the rest, the lockout window for SHORT, TEMP_TRIP, BUS_OV and DUP_ID, LOCKOUT at once for DUP_ID, and
PATH_CONFLICT recorded against the path source that became ACTIVE second. -/
def Obligations.OnsetTable : Prop :=
  ∀ (src : Source) (value : Half) (scope : Scope) (s : State),
    let x := s.fault.register.get src
    let u := s.takeOnset src value scope
    (s.committed = false → src ≠ .dupId →
      u.fault.register.get src = { x with present := true } ∧ u.conn = s.conn ∧ u.switches = s.switches
        ∧ u.fault.tripCounter = s.fault.tripCounter)
    ∧ (s.committed = true → x.state = .clear ∨ x.state = .lapsed → s.isHeld src = true →
        u.fault.register.get src = ⟨.held, true, some value⟩ ∧ u.hasEvent .heldFault = true ∧ u.conn = s.conn
          ∧ u.switches = s.switches ∧ u.fault.tripCounter = s.fault.tripCounter)
    ∧ (s.committed = true ∨ src = .dupId → x.state = .clear ∨ x.state = .lapsed → s.isHeld src = false →
        u.fault.register.get src = ⟨.active, true, some value⟩ ∧ u.conn.sleepPending = false
          ∧ (src.isTrip = true ∨ src = .dupId → s.TakesTrip (src.cause value scope) u))
    ∧ (s.committed = true → x.state = .active → src.isTrip = true →
        u.fault.register.get src = ⟨.active, true, some value⟩ ∧ s.TakesTrip (src.cause value scope) u
          ∧ (s.fault.tripCounter < 65535 → s.fault.tripCounter < u.fault.tripCounter))
    ∧ (src = .dupId → x.state = .active → x.present = true → u = s)
    ∧ (∀ other : Source, src.isPath = true → other.isPath = true → other ≠ src → s.committed = true →
        x.state = .clear ∨ x.state = .lapsed → s.isHeld src = false →
        ((s.fault.register.get other).state = .active →
            s.TakesTrip { code := .pathConflict, source := src, scope := .localOnly, value := value, classA := false,
                          toLockout := false } u)
        ∧ ((s.fault.register.get other).state ≠ .active →
            u.fault.tripCounter = s.fault.tripCounter ∧ u.conn.state = s.conn.state
            ∧ (s.conn.state = .closing ∨ s.conn.state = .connected →
                u.switches = { chg := decide (src ≠ .modOv), dsg := decide (src ≠ .modUv) })
            ∧ (s.conn.state = .connected → u.conn.path = if src = .modOv then .dischargeOnly else .chargeOnly)))

/-- The trip procedure (R59, R87, R138 to R141, R143, R144, R148): the switches open; a class A cause starts the lockout
window and, where the window was running or the cause is DUP_ID, leads to LOCKOUT; LOCKOUT is not left; the counter rises,
saturating; the record is appended with the connection state as it stood; a TRIP frame with the code, the scope and the
value is handed over, merging with a pending one or held while that is on the line (R13, R139 step 5); a claim in progress
ends; scope BUS clears the record and starts the quiet period.
Every trip is this procedure, and one taken in CLOSING removes the closing hold after it (R87, R132, R134, R142): each
over-current source that the hold alone held then trips too, OC_DSG before OC_CHG, in TRIPPED or LOCKOUT, with its own record
and count; its TRIP merges with the pending one (R13). -/
def Obligations.TripProcedure : Prop :=
  (∀ (d : TripCause) (s : State),
    let u := s.takeTrip d
    s.TakesTrip d u ∧ KeepsSurroundings s u
    ∧ (s.conn.state ≠ .closing → u = s.tripCore d)
    ∧ (s.conn.state = .closing → s.TripLiftsClosingHold d u ∧ s.TripFrameTellsLast d u))
  ∧ ∀ (d : TripCause) (s : State),
    let u := s.tripCore d
    u.HasTripped
    ∧ u.conn.state = (if d.toLockout = true ∨ d.classA = true ∧ s.fault.lockout.isSome = true ∨ s.conn.state = .lockout
        then .lockout else .tripped)
    ∧ u.fault.lockout = (if d.classA then some 10000 else s.fault.lockout)
    ∧ u.fault.tripCounter = min 65535 (s.fault.tripCounter + 1)
    ∧ (∃ r, u.fault.history.getLast? = some r ∧ r.code = d.code ∧ r.source = d.source ∧ r.scope = d.scope
        ∧ r.value = d.value ∧ r.connState = s.conn.state
        ∧ r.accumulator = (if s.charge.levelValid then s.charge.accAs else 0)
        ∧ (s.fault.tripCounter < 65535 → r.number.toNat = u.fault.tripCounter))
    ∧ u.fault.history.length = min (s.fault.history.length + 1) (max 4 s.fault.history.length)
    ∧ u.fault.history.dropLast = (if 4 ≤ s.fault.history.length then s.fault.history.drop 1 else s.fault.history)
    ∧ (s.closure.claim.isSome = true → u.closure.lastOutcome = .tripped)
    ∧ (s.mbi.bus = .active →
        let code : Byte := BitVec.ofNat 8 d.code.number
        let scope : Byte := if d.scope = .bus then 1 else 0
        (s.mbi.onLine ≠ some .trip → hasKind .trip s.mbi.list = false → u.Pends (.trip ⟨code, scope, d.value⟩))
        ∧ (∀ (old : TripPayload) (n : Nat) (before after : List TxFrame), s.mbi.onLine ≠ some .trip →
            s.mbi.list = before ++ [⟨.trip old, n⟩] ++ after →
            hasKind .trip before = false → hasKind .trip after = false →
            u.Pends (.trip ⟨code, if scope = 1 ∨ old.scope = 1 then 1 else 0, d.value⟩))
        ∧ (s.mbi.onLine = some .trip → s.mbi.heldTrip = none →
            u.mbi.heldTrip = some ⟨code, scope, d.value⟩)
        ∧ (∀ old, s.mbi.onLine = some .trip → s.mbi.heldTrip = some old →
            u.mbi.heldTrip = some ⟨code, if scope = 1 ∨ old.scope = 1 then 1 else 0, d.value⟩))
    ∧ (s.mbi.bus ≠ .active → u.mbi.heldTrip = s.mbi.heldTrip)
    ∧ (d.scope = .bus → u.closure.record = none ∧ u.closure.quiet = some 1000)
    ∧ (d.scope = .localOnly → u.closure.quiet = s.closure.quiet)
    ∧ u.fault.register = s.fault.register ∧ KeepsSurroundings s u

/-- The eligibility test (R48, R74 to R76): where every condition of R74 holds and the voltage condition too, a claim
begins, with the claim number raised, its CLAIM handed over and CLAIMING entered; on a dead bus beside a peer that
announces a closure BUS_SENSE_CONFLICT is set instead; where any condition fails nothing happens.
The test is made at the events of R75. After a sample no station is left eligible without its claim; no command, by an entry
into ISOLATED or by a change of a condition, makes a station eligible and leaves it so; and a hold-off, a quiet period or a
record that runs out begins the claim at once where every condition then holds. No command begins a claim where a condition
fails. CONFIG_WRITE, taken before the commit only, is no such event. That a change within a command is tested at its end is
log entry 28 (DEDUCED). -/
def Obligations.EligibilityTest : Prop :=
  (∀ s : State,
    (¬ s.Eligible → ¬ s.SenseConflict → s.eligibilityTest = s)
    ∧ (s.SenseConflict → s.eligibilityTest = s.setEvent .busSenseConflict)
    ∧ (s.Eligible → s.eligibilityTest = s.beginClaim)
    ∧ (∀ x, s.Eligible → s.meas.sample = some x →
        let u := s.beginClaim
        u.Entered .claiming ∧ u.closure.claimNumber = s.closure.claimNumber + 1
          ∧ u.closure.claim = some ⟨x.vmod, .queued⟩
          ∧ u.Handed (.claim ⟨x.vmod, u.closure.claimNumber,
              (s.config.claimTimeout.getD 0).extractLsb' 0 4 ++ (s.config.settleCode.getD 0).extractLsb' 0 4⟩)
          ∧ u.fault = s.fault ∧ u.roster = s.roster ∧ u.mbi.tx = s.mbi.tx))
  ∧ (∀ (i : SampleInputs) (race : Race) (s : State), s.power.phase = .run → s.meas.cycleTimer.isSome = true →
      ∃ t, exec (.sampleComplete i race) s = .next t ∧ ¬ t.Eligible)
  ∧ (∀ s : State, s.power.phase = .run →
      (∀ u, s.closure.holdOff.isSome = true → u = { s with closure := { s.closure with holdOff := none } } →
        u.Eligible → exec .holdOffExpiry s = .next u.beginClaim.offer)
      ∧ (∀ u, s.closure.quiet.isSome = true → u = { s with closure := { s.closure with quiet := none } } →
        u.Eligible → exec .quietPeriodExpiry s = .next u.beginClaim.offer)
      ∧ (∀ u r, s.closure.record = some r → r.expiry.isSome = true →
        u = { s with closure := { s.closure with record := none } } →
        u.Eligible → exec .recordExpiry s = .next u.beginClaim.offer))
  ∧ (∀ (c : Instr) (s t : State), (s.committed = false → ∀ field value, c ≠ .configWrite field value) →
      ¬ s.Eligible → exec c s = .next t → ¬ t.Eligible)
  ∧ (∀ (c : Instr) (s t : State), exec c s = .next t → s.closure.claim = none → t.closure.claim ≠ none →
      t.conn.state = .claiming ∧ t.power.check = .passed ∧ t.conn.sleepPending = false ∧ t.mbi.bus = .active
        ∧ t.mbi.rejectMuted = false ∧ t.closure.record = none ∧ t.closure.holdOff = none ∧ t.closure.quiet = none
        ∧ t.closure.claimNumber = s.closure.claimNumber + 1 ∧ t.VoltageHolds
        ∧ (t.mbi.list.filter fun f => f.frame.kind.isOwnConnection).length = 1)

/-! ## Invariants -/

/-- The machine after reset is the part at the end of a power-on reset with the straps open (R165, R172), and satisfies every
invariant that steps keep. That reset is this moment, and id 0, is the model's choice: log entries 11 and 12. -/
def Obligations.ResetIsThePowerOnStart : Prop :=
  exec (.powerOnResetEnd 0) { State.reset with power := { State.reset.power with phase := .powerOnReset } }
    = .next State.reset
  ∧ exec (.powerOnResetEnd 0) { State.reset with power := { State.reset.power with phase := .unpowered } }
    = .next State.reset
  ∧ State.reset.SwitchesSafe ∧ State.reset.PathSafe ∧ State.reset.ClassASafe ∧ State.reset.HistorySound
    ∧ State.reset.CountsBounded ∧ State.reset.ChargeBounded ∧ State.reset.RosterSafe ∧ State.reset.OffOutsideRun

/-- Every step keeps the switches open outside CLOSING and CONNECTED and the path NONE outside CONNECTED (R70, R90). -/
def Obligations.EveryStepKeepsSwitchesAndPath : Prop :=
  ∀ s t : State, s.SwitchesSafe → s.PathSafe → step s = .next t → t.SwitchesSafe ∧ t.PathSafe

/-- Every step keeps class A sources out of HELD and LAPSED, and the trip history sound (R128, R143, R144). -/
def Obligations.EveryStepKeepsFaultRecords : Prop :=
  ∀ s t : State, s.ClassASafe → s.HistorySound → step s = .next t → t.ClassASafe ∧ t.HistorySound

/-- Every step keeps the error counts and the charge account within their ranges (R15 to R17, R100 to R102, R105). -/
def Obligations.EveryStepKeepsCountsInRange : Prop :=
  ∀ s t : State, s.CountsBounded → s.ChargeBounded → step s = .next t → t.CountsBounded ∧ t.ChargeBounded

/-- Every step keeps the own id out of the Roster, and the MBI OFF outside RUN (R19, R20, R22). -/
def Obligations.EveryStepKeepsRosterAndBus : Prop :=
  ∀ s t : State, s.RosterSafe → s.OffOutsideRun → step s = .next t → t.RosterSafe ∧ t.OffOutsideRun
end

