-- ==== Sys2Proof/Laws/State.lean ====
section
/-! SUPPORT. What each single update of the state leaves unchanged: for every update of the Module Bus Interface and for every operation that writes one block, the fields it does not write, as simp lemmas. No later proof unfolds a record update. -/

namespace Sys2Proof.Machine

@[simp] theorem Mbi.join_frame (f : Frame) (m : Mbi) :
    (m.join f).bus = m.bus ∧ (m.join f).line = m.line ∧ (m.join f).tx = m.tx ∧ (m.join f).heldStatus = m.heldStatus
      ∧ (m.join f).heldTrip = m.heldTrip ∧ (m.join f).withdrawal = m.withdrawal ∧ (m.join f).tec = m.tec
      ∧ (m.join f).recCount = m.recCount ∧ (m.join f).rejectMuted = m.rejectMuted
      ∧ (m.join f).permanentSilence = m.permanentSilence ∧ (m.join f).goodCount = m.goodCount
      ∧ (m.join f).silenceTimer = m.silenceTimer ∧ (m.join f).slotDriven = m.slotDriven := by
  simp [Mbi.join]

@[simp] theorem Mbi.putStatus_frame (p : StatusPayload) (m : Mbi) :
    (m.putStatus p).bus = m.bus ∧ (m.putStatus p).line = m.line ∧ (m.putStatus p).tx = m.tx
      ∧ (m.putStatus p).heldStatus = m.heldStatus ∧ (m.putStatus p).heldTrip = m.heldTrip
      ∧ (m.putStatus p).withdrawal = m.withdrawal ∧ (m.putStatus p).tec = m.tec
      ∧ (m.putStatus p).recCount = m.recCount ∧ (m.putStatus p).rejectMuted = m.rejectMuted
      ∧ (m.putStatus p).permanentSilence = m.permanentSilence ∧ (m.putStatus p).goodCount = m.goodCount
      ∧ (m.putStatus p).silenceTimer = m.silenceTimer ∧ (m.putStatus p).slotDriven = m.slotDriven := by
  unfold Mbi.putStatus
  split <;> simp

@[simp] theorem Mbi.putTrip_frame (p : TripPayload) (m : Mbi) :
    (m.putTrip p).bus = m.bus ∧ (m.putTrip p).line = m.line ∧ (m.putTrip p).tx = m.tx
      ∧ (m.putTrip p).heldStatus = m.heldStatus ∧ (m.putTrip p).heldTrip = m.heldTrip
      ∧ (m.putTrip p).withdrawal = m.withdrawal ∧ (m.putTrip p).tec = m.tec ∧ (m.putTrip p).recCount = m.recCount
      ∧ (m.putTrip p).rejectMuted = m.rejectMuted ∧ (m.putTrip p).permanentSilence = m.permanentSilence
      ∧ (m.putTrip p).goodCount = m.goodCount ∧ (m.putTrip p).silenceTimer = m.silenceTimer
      ∧ (m.putTrip p).slotDriven = m.slotDriven := by
  unfold Mbi.putTrip
  split <;> simp

@[simp] theorem Mbi.handStatus_frame (p : StatusPayload) (m : Mbi) :
    (m.handStatus p).bus = m.bus ∧ (m.handStatus p).line = m.line ∧ (m.handStatus p).tx = m.tx
      ∧ (m.handStatus p).heldTrip = m.heldTrip ∧ (m.handStatus p).withdrawal = m.withdrawal
      ∧ (m.handStatus p).tec = m.tec ∧ (m.handStatus p).recCount = m.recCount
      ∧ (m.handStatus p).rejectMuted = m.rejectMuted ∧ (m.handStatus p).permanentSilence = m.permanentSilence
      ∧ (m.handStatus p).goodCount = m.goodCount ∧ (m.handStatus p).silenceTimer = m.silenceTimer
      ∧ (m.handStatus p).slotDriven = m.slotDriven := by
  unfold Mbi.handStatus
  split <;> simp

@[simp] theorem Mbi.handTrip_frame (p : TripPayload) (m : Mbi) :
    (m.handTrip p).bus = m.bus ∧ (m.handTrip p).line = m.line ∧ (m.handTrip p).tx = m.tx
      ∧ (m.handTrip p).heldStatus = m.heldStatus ∧ (m.handTrip p).withdrawal = m.withdrawal
      ∧ (m.handTrip p).tec = m.tec ∧ (m.handTrip p).recCount = m.recCount
      ∧ (m.handTrip p).rejectMuted = m.rejectMuted ∧ (m.handTrip p).permanentSilence = m.permanentSilence
      ∧ (m.handTrip p).goodCount = m.goodCount ∧ (m.handTrip p).silenceTimer = m.silenceTimer
      ∧ (m.handTrip p).slotDriven = m.slotDriven := by
  unfold Mbi.handTrip
  split <;> simp

@[simp] theorem Mbi.releaseHeld_frame (m : Mbi) :
    m.releaseHeld.bus = m.bus ∧ m.releaseHeld.line = m.line ∧ m.releaseHeld.tx = m.tx
      ∧ m.releaseHeld.withdrawal = m.withdrawal ∧ m.releaseHeld.tec = m.tec ∧ m.releaseHeld.recCount = m.recCount
      ∧ m.releaseHeld.rejectMuted = m.rejectMuted ∧ m.releaseHeld.permanentSilence = m.permanentSilence
      ∧ m.releaseHeld.goodCount = m.goodCount ∧ m.releaseHeld.silenceTimer = m.silenceTimer
      ∧ m.releaseHeld.slotDriven = m.slotDriven := by
  unfold Mbi.releaseHeld
  dsimp only
  (repeat' split) <;> simp

@[simp] theorem Mbi.takeWithdrawal_frame (m : Mbi) :
    m.takeWithdrawal.bus = m.bus ∧ m.takeWithdrawal.line = m.line ∧ m.takeWithdrawal.tx = m.tx
      ∧ m.takeWithdrawal.heldStatus = m.heldStatus ∧ m.takeWithdrawal.heldTrip = m.heldTrip
      ∧ m.takeWithdrawal.tec = m.tec ∧ m.takeWithdrawal.recCount = m.recCount
      ∧ m.takeWithdrawal.rejectMuted = m.rejectMuted ∧ m.takeWithdrawal.permanentSilence = m.permanentSilence
      ∧ m.takeWithdrawal.goodCount = m.goodCount ∧ m.takeWithdrawal.silenceTimer = m.silenceTimer
      ∧ m.takeWithdrawal.slotDriven = m.slotDriven := by
  simp [Mbi.takeWithdrawal]

@[simp] theorem Mbi.loseArbitration_frame (m : Mbi) :
    m.loseArbitration.bus = m.bus ∧ m.loseArbitration.tec = m.tec ∧ m.loseArbitration.recCount = m.recCount
      ∧ m.loseArbitration.rejectMuted = m.rejectMuted ∧ m.loseArbitration.permanentSilence = m.permanentSilence
      ∧ m.loseArbitration.goodCount = m.goodCount ∧ m.loseArbitration.silenceTimer = m.silenceTimer
      ∧ m.loseArbitration.slotDriven = m.slotDriven := by
  unfold Mbi.loseArbitration
  dsimp only
  (repeat' split) <;> simp

@[simp] theorem Mbi.discardList_frame (m : Mbi) :
    m.discardList.bus = m.bus ∧ m.discardList.line = m.line ∧ m.discardList.tec = m.tec
      ∧ m.discardList.recCount = m.recCount ∧ m.discardList.rejectMuted = m.rejectMuted
      ∧ m.discardList.permanentSilence = m.permanentSilence ∧ m.discardList.goodCount = m.goodCount
      ∧ m.discardList.silenceTimer = m.silenceTimer ∧ m.discardList.slotDriven = m.slotDriven := by
  simp [Mbi.discardList]

@[simp] theorem Mbi.sent_frame (k : FrameKind) (m : Mbi) :
    (m.sent k).bus = m.bus ∧ (m.sent k).recCount = m.recCount ∧ (m.sent k).rejectMuted = m.rejectMuted
      ∧ (m.sent k).permanentSilence = m.permanentSilence ∧ (m.sent k).goodCount = m.goodCount
      ∧ (m.sent k).silenceTimer = m.silenceTimer ∧ (m.sent k).slotDriven = m.slotDriven := by
  simp [Mbi.sent]

@[simp] theorem State.setEvent_frame (e : Event) (s : State) :
    (s.setEvent e).pending = s.pending ∧ (s.setEvent e).choices = s.choices ∧ (s.setEvent e).pins = s.pins
      ∧ (s.setEvent e).ownId = s.ownId
      ∧ (s.setEvent e).config = s.config ∧ (s.setEvent e).committed = s.committed ∧ (s.setEvent e).mbi = s.mbi
      ∧ (s.setEvent e).roster = s.roster ∧ (s.setEvent e).closure = s.closure ∧ (s.setEvent e).conn = s.conn
      ∧ (s.setEvent e).switches = s.switches ∧ (s.setEvent e).meas = s.meas ∧ (s.setEvent e).charge = s.charge
      ∧ (s.setEvent e).det = s.det ∧ (s.setEvent e).fault = s.fault ∧ (s.setEvent e).power = s.power
      ∧ (s.setEvent e).port.line = s.port.line ∧ (s.setEvent e).port.response = s.port.response
      ∧ (s.setEvent e).port.resetPending = s.port.resetPending ∧ (s.setEvent e).port.enables = s.port.enables := by
  simp [State.setEvent]

@[simp] theorem State.queueFrame_frame (f : Frame) (s : State) :
    (s.queueFrame f).pending = s.pending ∧ (s.queueFrame f).choices = s.choices ∧ (s.queueFrame f).pins = s.pins
      ∧ (s.queueFrame f).ownId = s.ownId
      ∧ (s.queueFrame f).config = s.config ∧ (s.queueFrame f).committed = s.committed
      ∧ (s.queueFrame f).mbi.bus = s.mbi.bus ∧ (s.queueFrame f).mbi.line = s.mbi.line
      ∧ (s.queueFrame f).mbi.tx = s.mbi.tx ∧ (s.queueFrame f).mbi.withdrawal = s.mbi.withdrawal
      ∧ (s.queueFrame f).mbi.tec = s.mbi.tec ∧ (s.queueFrame f).mbi.recCount = s.mbi.recCount
      ∧ (s.queueFrame f).mbi.rejectMuted = s.mbi.rejectMuted
      ∧ (s.queueFrame f).mbi.permanentSilence = s.mbi.permanentSilence
      ∧ (s.queueFrame f).mbi.goodCount = s.mbi.goodCount ∧ (s.queueFrame f).mbi.silenceTimer = s.mbi.silenceTimer
      ∧ (s.queueFrame f).mbi.slotDriven = s.mbi.slotDriven ∧ (s.queueFrame f).roster = s.roster
      ∧ (s.queueFrame f).closure = s.closure ∧ (s.queueFrame f).conn = s.conn
      ∧ (s.queueFrame f).switches = s.switches ∧ (s.queueFrame f).meas = s.meas ∧ (s.queueFrame f).charge = s.charge
      ∧ (s.queueFrame f).det = s.det ∧ (s.queueFrame f).fault = s.fault ∧ (s.queueFrame f).power = s.power
      ∧ (s.queueFrame f).port.line = s.port.line ∧ (s.queueFrame f).port.response = s.port.response
      ∧ (s.queueFrame f).port.resetPending = s.port.resetPending ∧ (s.queueFrame f).port.enables = s.port.enables := by
  unfold State.queueFrame
  (repeat' split) <;> simp

@[simp] theorem State.handStatus_frame (s : State) :
    s.handStatus.pending = s.pending ∧ s.handStatus.choices = s.choices ∧ s.handStatus.pins = s.pins
      ∧ s.handStatus.ownId = s.ownId
      ∧ s.handStatus.config = s.config ∧ s.handStatus.committed = s.committed ∧ s.handStatus.mbi.bus = s.mbi.bus
      ∧ s.handStatus.mbi.line = s.mbi.line ∧ s.handStatus.mbi.tx = s.mbi.tx
      ∧ s.handStatus.mbi.withdrawal = s.mbi.withdrawal ∧ s.handStatus.mbi.tec = s.mbi.tec
      ∧ s.handStatus.mbi.recCount = s.mbi.recCount ∧ s.handStatus.mbi.rejectMuted = s.mbi.rejectMuted
      ∧ s.handStatus.mbi.permanentSilence = s.mbi.permanentSilence ∧ s.handStatus.mbi.goodCount = s.mbi.goodCount
      ∧ s.handStatus.mbi.silenceTimer = s.mbi.silenceTimer ∧ s.handStatus.mbi.slotDriven = s.mbi.slotDriven
      ∧ s.handStatus.roster = s.roster ∧ s.handStatus.closure = s.closure ∧ s.handStatus.conn = s.conn
      ∧ s.handStatus.switches = s.switches ∧ s.handStatus.meas = s.meas ∧ s.handStatus.charge = s.charge
      ∧ s.handStatus.det = s.det ∧ s.handStatus.fault = s.fault ∧ s.handStatus.power = s.power
      ∧ s.handStatus.port = s.port := by
  unfold State.handStatus State.queueFrame
  split <;> simp

@[simp] theorem State.offer_frame (s : State) :
    s.offer.pending = s.pending ∧ s.offer.choices = s.choices ∧ s.offer.pins = s.pins ∧ s.offer.ownId = s.ownId
      ∧ s.offer.config = s.config
      ∧ s.offer.committed = s.committed ∧ s.offer.mbi.bus = s.mbi.bus ∧ s.offer.mbi.list = s.mbi.list
      ∧ s.offer.mbi.heldStatus = s.mbi.heldStatus ∧ s.offer.mbi.heldTrip = s.mbi.heldTrip
      ∧ s.offer.mbi.withdrawal = s.mbi.withdrawal ∧ s.offer.mbi.tec = s.mbi.tec
      ∧ s.offer.mbi.recCount = s.mbi.recCount ∧ s.offer.mbi.rejectMuted = s.mbi.rejectMuted
      ∧ s.offer.mbi.permanentSilence = s.mbi.permanentSilence ∧ s.offer.mbi.goodCount = s.mbi.goodCount
      ∧ s.offer.mbi.silenceTimer = s.mbi.silenceTimer ∧ s.offer.mbi.slotDriven = s.mbi.slotDriven
      ∧ s.offer.roster = s.roster ∧ s.offer.closure = s.closure ∧ s.offer.conn = s.conn
      ∧ s.offer.switches = s.switches ∧ s.offer.meas = s.meas ∧ s.offer.charge = s.charge ∧ s.offer.det = s.det
      ∧ s.offer.fault = s.fault ∧ s.offer.power = s.power ∧ s.offer.port = s.port := by
  unfold State.offer
  (repeat' split) <;> simp

@[simp] theorem State.rosterFrame_frame (id : StationId) (update : RosterEntry → RosterEntry) (s : State) :
    (s.rosterFrame id update).pending = s.pending ∧ (s.rosterFrame id update).choices = s.choices
      ∧ (s.rosterFrame id update).pins = s.pins
      ∧ (s.rosterFrame id update).ownId = s.ownId ∧ (s.rosterFrame id update).config = s.config
      ∧ (s.rosterFrame id update).committed = s.committed ∧ (s.rosterFrame id update).mbi = s.mbi
      ∧ (s.rosterFrame id update).closure = s.closure ∧ (s.rosterFrame id update).conn = s.conn
      ∧ (s.rosterFrame id update).switches = s.switches ∧ (s.rosterFrame id update).meas = s.meas
      ∧ (s.rosterFrame id update).charge = s.charge ∧ (s.rosterFrame id update).det = s.det
      ∧ (s.rosterFrame id update).fault = s.fault ∧ (s.rosterFrame id update).power = s.power
      ∧ (s.rosterFrame id update).port.line = s.port.line
      ∧ (s.rosterFrame id update).port.response = s.port.response
      ∧ (s.rosterFrame id update).port.resetPending = s.port.resetPending
      ∧ (s.rosterFrame id update).port.enables = s.port.enables := by
  unfold State.rosterFrame
  split <;> simp

@[simp] theorem State.markStale_frame (ids : List StationId) (s : State) :
    (s.markStale ids).pending = s.pending ∧ (s.markStale ids).choices = s.choices ∧ (s.markStale ids).pins = s.pins
      ∧ (s.markStale ids).ownId = s.ownId ∧ (s.markStale ids).config = s.config
      ∧ (s.markStale ids).committed = s.committed ∧ (s.markStale ids).mbi = s.mbi
      ∧ (s.markStale ids).closure = s.closure ∧ (s.markStale ids).conn = s.conn
      ∧ (s.markStale ids).switches = s.switches ∧ (s.markStale ids).meas = s.meas
      ∧ (s.markStale ids).charge = s.charge ∧ (s.markStale ids).det = s.det ∧ (s.markStale ids).fault = s.fault
      ∧ (s.markStale ids).power = s.power ∧ (s.markStale ids).port.line = s.port.line
      ∧ (s.markStale ids).port.response = s.port.response
      ∧ (s.markStale ids).port.resetPending = s.port.resetPending
      ∧ (s.markStale ids).port.enables = s.port.enables := by
  unfold State.markStale
  dsimp only
  (repeat' split) <;> simp

@[simp] theorem State.openSwitches_frame (s : State) :
    s.openSwitches.pending = s.pending ∧ s.openSwitches.choices = s.choices ∧ s.openSwitches.pins = s.pins
      ∧ s.openSwitches.ownId = s.ownId
      ∧ s.openSwitches.config = s.config ∧ s.openSwitches.committed = s.committed ∧ s.openSwitches.mbi = s.mbi
      ∧ s.openSwitches.roster = s.roster ∧ s.openSwitches.closure = s.closure ∧ s.openSwitches.conn = s.conn
      ∧ s.openSwitches.meas = s.meas ∧ s.openSwitches.charge = s.charge ∧ s.openSwitches.det = s.det
      ∧ s.openSwitches.fault = s.fault ∧ s.openSwitches.power = s.power ∧ s.openSwitches.port = s.port := by
  simp [State.openSwitches]

@[simp] theorem State.startHoldOff_frame (s : State) :
    s.startHoldOff.pending = s.pending ∧ s.startHoldOff.choices = s.choices ∧ s.startHoldOff.pins = s.pins
      ∧ s.startHoldOff.ownId = s.ownId
      ∧ s.startHoldOff.config = s.config ∧ s.startHoldOff.committed = s.committed ∧ s.startHoldOff.mbi = s.mbi
      ∧ s.startHoldOff.roster = s.roster ∧ s.startHoldOff.closure.record = s.closure.record
      ∧ s.startHoldOff.closure.claimNumber = s.closure.claimNumber ∧ s.startHoldOff.closure.claim = s.closure.claim
      ∧ s.startHoldOff.closure.lastOutcome = s.closure.lastOutcome ∧ s.startHoldOff.closure.quiet = s.closure.quiet
      ∧ s.startHoldOff.conn = s.conn ∧ s.startHoldOff.switches = s.switches ∧ s.startHoldOff.meas = s.meas
      ∧ s.startHoldOff.charge = s.charge ∧ s.startHoldOff.det = s.det ∧ s.startHoldOff.fault = s.fault
      ∧ s.startHoldOff.power = s.power ∧ s.startHoldOff.port = s.port := by
  simp [State.startHoldOff]

@[simp] theorem State.endClaim_frame (o : ClaimOutcome) (s : State) :
    (s.endClaim o).pending = s.pending ∧ (s.endClaim o).choices = s.choices ∧ (s.endClaim o).pins = s.pins
      ∧ (s.endClaim o).ownId = s.ownId
      ∧ (s.endClaim o).config = s.config ∧ (s.endClaim o).committed = s.committed ∧ (s.endClaim o).mbi = s.mbi
      ∧ (s.endClaim o).roster = s.roster ∧ (s.endClaim o).closure.record = s.closure.record
      ∧ (s.endClaim o).closure.claimNumber = s.closure.claimNumber
      ∧ (s.endClaim o).closure.holdOff = s.closure.holdOff ∧ (s.endClaim o).closure.quiet = s.closure.quiet
      ∧ (s.endClaim o).conn = s.conn ∧ (s.endClaim o).switches = s.switches ∧ (s.endClaim o).meas = s.meas
      ∧ (s.endClaim o).charge = s.charge ∧ (s.endClaim o).det = s.det ∧ (s.endClaim o).fault = s.fault
      ∧ (s.endClaim o).power = s.power ∧ (s.endClaim o).port = s.port := by
  simp [State.endClaim]

@[simp] theorem State.queueAbandon_frame (r : AbandonReason) (s : State) :
    (s.queueAbandon r).pending = s.pending ∧ (s.queueAbandon r).choices = s.choices ∧ (s.queueAbandon r).pins = s.pins
      ∧ (s.queueAbandon r).ownId = s.ownId ∧ (s.queueAbandon r).config = s.config
      ∧ (s.queueAbandon r).committed = s.committed ∧ (s.queueAbandon r).mbi.bus = s.mbi.bus
      ∧ (s.queueAbandon r).mbi.line = s.mbi.line ∧ (s.queueAbandon r).mbi.tx = s.mbi.tx
      ∧ (s.queueAbandon r).mbi.withdrawal = s.mbi.withdrawal ∧ (s.queueAbandon r).mbi.tec = s.mbi.tec
      ∧ (s.queueAbandon r).mbi.recCount = s.mbi.recCount ∧ (s.queueAbandon r).mbi.rejectMuted = s.mbi.rejectMuted
      ∧ (s.queueAbandon r).mbi.permanentSilence = s.mbi.permanentSilence
      ∧ (s.queueAbandon r).mbi.goodCount = s.mbi.goodCount
      ∧ (s.queueAbandon r).mbi.silenceTimer = s.mbi.silenceTimer
      ∧ (s.queueAbandon r).mbi.slotDriven = s.mbi.slotDriven ∧ (s.queueAbandon r).roster = s.roster
      ∧ (s.queueAbandon r).closure = s.closure ∧ (s.queueAbandon r).conn = s.conn
      ∧ (s.queueAbandon r).switches = s.switches ∧ (s.queueAbandon r).meas = s.meas
      ∧ (s.queueAbandon r).charge = s.charge ∧ (s.queueAbandon r).det = s.det ∧ (s.queueAbandon r).fault = s.fault
      ∧ (s.queueAbandon r).power = s.power ∧ (s.queueAbandon r).port = s.port := by
  unfold State.queueAbandon State.queueFrame
  split <;> simp

@[simp] theorem State.withdrawClaim_frame (w : Withdrawal) (s : State) :
    (s.withdrawClaim w).pending = s.pending ∧ (s.withdrawClaim w).choices = s.choices
      ∧ (s.withdrawClaim w).pins = s.pins
      ∧ (s.withdrawClaim w).ownId = s.ownId ∧ (s.withdrawClaim w).config = s.config
      ∧ (s.withdrawClaim w).committed = s.committed ∧ (s.withdrawClaim w).mbi.bus = s.mbi.bus
      ∧ (s.withdrawClaim w).mbi.line = s.mbi.line ∧ (s.withdrawClaim w).mbi.tx = s.mbi.tx
      ∧ (s.withdrawClaim w).mbi.heldStatus = s.mbi.heldStatus ∧ (s.withdrawClaim w).mbi.heldTrip = s.mbi.heldTrip
      ∧ (s.withdrawClaim w).mbi.tec = s.mbi.tec ∧ (s.withdrawClaim w).mbi.recCount = s.mbi.recCount
      ∧ (s.withdrawClaim w).mbi.rejectMuted = s.mbi.rejectMuted
      ∧ (s.withdrawClaim w).mbi.permanentSilence = s.mbi.permanentSilence
      ∧ (s.withdrawClaim w).mbi.goodCount = s.mbi.goodCount
      ∧ (s.withdrawClaim w).mbi.silenceTimer = s.mbi.silenceTimer
      ∧ (s.withdrawClaim w).mbi.slotDriven = s.mbi.slotDriven ∧ (s.withdrawClaim w).roster = s.roster
      ∧ (s.withdrawClaim w).closure = s.closure ∧ (s.withdrawClaim w).conn = s.conn
      ∧ (s.withdrawClaim w).switches = s.switches ∧ (s.withdrawClaim w).meas = s.meas
      ∧ (s.withdrawClaim w).charge = s.charge ∧ (s.withdrawClaim w).det = s.det
      ∧ (s.withdrawClaim w).fault = s.fault ∧ (s.withdrawClaim w).power = s.power
      ∧ (s.withdrawClaim w).port = s.port := by
  unfold State.withdrawClaim
  split <;> simp

@[simp] theorem State.recordTrip_frame (d : TripCause) (before : ConnState) (s : State) :
    (s.recordTrip d before).pending = s.pending ∧ (s.recordTrip d before).choices = s.choices
      ∧ (s.recordTrip d before).pins = s.pins
      ∧ (s.recordTrip d before).ownId = s.ownId ∧ (s.recordTrip d before).config = s.config
      ∧ (s.recordTrip d before).committed = s.committed ∧ (s.recordTrip d before).mbi = s.mbi
      ∧ (s.recordTrip d before).roster = s.roster ∧ (s.recordTrip d before).closure = s.closure
      ∧ (s.recordTrip d before).conn = s.conn ∧ (s.recordTrip d before).switches = s.switches
      ∧ (s.recordTrip d before).meas = s.meas ∧ (s.recordTrip d before).charge = s.charge
      ∧ (s.recordTrip d before).det = s.det ∧ (s.recordTrip d before).fault.register = s.fault.register
      ∧ (s.recordTrip d before).fault.portHolds = s.fault.portHolds
      ∧ (s.recordTrip d before).fault.closingHold = s.fault.closingHold ∧ (s.recordTrip d before).power = s.power
      ∧ (s.recordTrip d before).port = s.port := by
  simp [State.recordTrip]

@[simp] theorem State.takeBusTrip_frame (s : State) :
    s.takeBusTrip.pending = s.pending ∧ s.takeBusTrip.choices = s.choices ∧ s.takeBusTrip.pins = s.pins
      ∧ s.takeBusTrip.ownId = s.ownId
      ∧ s.takeBusTrip.config = s.config ∧ s.takeBusTrip.committed = s.committed ∧ s.takeBusTrip.mbi = s.mbi
      ∧ s.takeBusTrip.roster = s.roster ∧ s.takeBusTrip.closure.claimNumber = s.closure.claimNumber
      ∧ s.takeBusTrip.closure.claim = s.closure.claim ∧ s.takeBusTrip.closure.lastOutcome = s.closure.lastOutcome
      ∧ s.takeBusTrip.closure.holdOff = s.closure.holdOff ∧ s.takeBusTrip.conn = s.conn
      ∧ s.takeBusTrip.switches = s.switches ∧ s.takeBusTrip.meas = s.meas ∧ s.takeBusTrip.charge = s.charge
      ∧ s.takeBusTrip.det = s.det ∧ s.takeBusTrip.fault = s.fault ∧ s.takeBusTrip.power = s.power
      ∧ s.takeBusTrip.port = s.port := by
  simp [State.takeBusTrip]

@[simp] theorem State.startSelfCheck_frame (s : State) :
    s.startSelfCheck.pending = s.pending ∧ s.startSelfCheck.choices = s.choices ∧ s.startSelfCheck.pins = s.pins
      ∧ s.startSelfCheck.ownId = s.ownId
      ∧ s.startSelfCheck.config = s.config ∧ s.startSelfCheck.committed = s.committed ∧ s.startSelfCheck.mbi = s.mbi
      ∧ s.startSelfCheck.roster = s.roster ∧ s.startSelfCheck.closure = s.closure ∧ s.startSelfCheck.conn = s.conn
      ∧ s.startSelfCheck.switches = s.switches ∧ s.startSelfCheck.meas.sample = s.meas.sample
      ∧ s.startSelfCheck.charge = s.charge ∧ s.startSelfCheck.det = s.det ∧ s.startSelfCheck.fault = s.fault
      ∧ s.startSelfCheck.power.phase = s.power.phase ∧ s.startSelfCheck.power.latch = s.power.latch
      ∧ s.startSelfCheck.power.wakeLineArmed = s.power.wakeLineArmed
      ∧ s.startSelfCheck.power.wakeLineRun = s.power.wakeLineRun
      ∧ s.startSelfCheck.power.pulseTimer = s.power.pulseTimer
      ∧ s.startSelfCheck.power.checkFailed = s.power.checkFailed
      ∧ s.startSelfCheck.power.checkFlag = s.power.checkFlag ∧ s.startSelfCheck.power.wakeCheck = s.power.wakeCheck
      ∧ s.startSelfCheck.port = s.port := by
  simp [State.startSelfCheck]

@[simp] theorem State.discardFrames_frame (s : State) :
    s.discardFrames.pending = s.pending ∧ s.discardFrames.choices = s.choices ∧ s.discardFrames.pins = s.pins
      ∧ s.discardFrames.ownId = s.ownId
      ∧ s.discardFrames.config = s.config ∧ s.discardFrames.committed = s.committed
      ∧ s.discardFrames.mbi.bus = s.mbi.bus ∧ s.discardFrames.mbi.line = s.mbi.line
      ∧ s.discardFrames.mbi.tec = s.mbi.tec ∧ s.discardFrames.mbi.recCount = s.mbi.recCount
      ∧ s.discardFrames.mbi.rejectMuted = s.mbi.rejectMuted
      ∧ s.discardFrames.mbi.permanentSilence = s.mbi.permanentSilence
      ∧ s.discardFrames.mbi.goodCount = s.mbi.goodCount ∧ s.discardFrames.mbi.silenceTimer = s.mbi.silenceTimer
      ∧ s.discardFrames.mbi.slotDriven = s.mbi.slotDriven ∧ s.discardFrames.roster = s.roster
      ∧ s.discardFrames.closure = s.closure ∧ s.discardFrames.conn = s.conn ∧ s.discardFrames.switches = s.switches
      ∧ s.discardFrames.meas = s.meas ∧ s.discardFrames.charge = s.charge ∧ s.discardFrames.det = s.det
      ∧ s.discardFrames.fault = s.fault ∧ s.discardFrames.power = s.power ∧ s.discardFrames.port = s.port := by
  simp [State.discardFrames]

@[simp] theorem State.startMarkRead_frame (s : State) :
    s.startMarkRead.pending = s.pending ∧ s.startMarkRead.choices = s.choices ∧ s.startMarkRead.pins = s.pins
      ∧ s.startMarkRead.ownId = s.ownId
      ∧ s.startMarkRead.config = s.config ∧ s.startMarkRead.committed = s.committed
      ∧ s.startMarkRead.mbi.bus = s.mbi.bus ∧ s.startMarkRead.mbi.line = s.mbi.line
      ∧ s.startMarkRead.mbi.tx = s.mbi.tx ∧ s.startMarkRead.mbi.list = s.mbi.list
      ∧ s.startMarkRead.mbi.heldStatus = s.mbi.heldStatus ∧ s.startMarkRead.mbi.heldTrip = s.mbi.heldTrip
      ∧ s.startMarkRead.mbi.withdrawal = s.mbi.withdrawal ∧ s.startMarkRead.mbi.tec = s.mbi.tec
      ∧ s.startMarkRead.mbi.recCount = s.mbi.recCount ∧ s.startMarkRead.mbi.rejectMuted = s.mbi.rejectMuted
      ∧ s.startMarkRead.mbi.permanentSilence = s.mbi.permanentSilence
      ∧ s.startMarkRead.mbi.goodCount = s.mbi.goodCount ∧ s.startMarkRead.mbi.slotDriven = s.mbi.slotDriven
      ∧ s.startMarkRead.roster = s.roster ∧ s.startMarkRead.closure = s.closure ∧ s.startMarkRead.conn = s.conn
      ∧ s.startMarkRead.switches = s.switches ∧ s.startMarkRead.meas = s.meas ∧ s.startMarkRead.charge = s.charge
      ∧ s.startMarkRead.det = s.det ∧ s.startMarkRead.fault = s.fault ∧ s.startMarkRead.power = s.power
      ∧ s.startMarkRead.port = s.port := by
  unfold State.startMarkRead
  split <;> simp

@[simp] theorem State.clearRecordOf_frame (id : StationId) (s : State) :
    (s.clearRecordOf id).pending = s.pending ∧ (s.clearRecordOf id).choices = s.choices
      ∧ (s.clearRecordOf id).pins = s.pins
      ∧ (s.clearRecordOf id).ownId = s.ownId ∧ (s.clearRecordOf id).config = s.config
      ∧ (s.clearRecordOf id).committed = s.committed ∧ (s.clearRecordOf id).mbi = s.mbi
      ∧ (s.clearRecordOf id).roster = s.roster ∧ (s.clearRecordOf id).closure.claimNumber = s.closure.claimNumber
      ∧ (s.clearRecordOf id).closure.claim = s.closure.claim
      ∧ (s.clearRecordOf id).closure.lastOutcome = s.closure.lastOutcome
      ∧ (s.clearRecordOf id).closure.holdOff = s.closure.holdOff
      ∧ (s.clearRecordOf id).closure.quiet = s.closure.quiet ∧ (s.clearRecordOf id).conn = s.conn
      ∧ (s.clearRecordOf id).switches = s.switches ∧ (s.clearRecordOf id).meas = s.meas
      ∧ (s.clearRecordOf id).charge = s.charge ∧ (s.clearRecordOf id).det = s.det
      ∧ (s.clearRecordOf id).fault = s.fault ∧ (s.clearRecordOf id).power = s.power
      ∧ (s.clearRecordOf id).port = s.port := by
  unfold State.clearRecordOf
  (repeat' split) <;> simp

@[simp] theorem State.releaseMbi_frame (s : State) :
    s.releaseMbi.pending = s.pending ∧ s.releaseMbi.choices = s.choices ∧ s.releaseMbi.pins = s.pins
      ∧ s.releaseMbi.ownId = s.ownId
      ∧ s.releaseMbi.config = s.config ∧ s.releaseMbi.committed = s.committed ∧ s.releaseMbi.mbi.tx = s.mbi.tx
      ∧ s.releaseMbi.mbi.list = s.mbi.list ∧ s.releaseMbi.mbi.heldStatus = s.mbi.heldStatus
      ∧ s.releaseMbi.mbi.heldTrip = s.mbi.heldTrip ∧ s.releaseMbi.mbi.withdrawal = s.mbi.withdrawal
      ∧ s.releaseMbi.mbi.tec = s.mbi.tec ∧ s.releaseMbi.mbi.recCount = s.mbi.recCount
      ∧ s.releaseMbi.mbi.rejectMuted = s.mbi.rejectMuted
      ∧ s.releaseMbi.mbi.permanentSilence = s.mbi.permanentSilence ∧ s.releaseMbi.mbi.goodCount = s.mbi.goodCount
      ∧ s.releaseMbi.mbi.silenceTimer = s.mbi.silenceTimer ∧ s.releaseMbi.mbi.slotDriven = s.mbi.slotDriven
      ∧ s.releaseMbi.roster = s.roster ∧ s.releaseMbi.closure = s.closure ∧ s.releaseMbi.conn = s.conn
      ∧ s.releaseMbi.switches = s.switches ∧ s.releaseMbi.meas = s.meas ∧ s.releaseMbi.charge = s.charge
      ∧ s.releaseMbi.det = s.det ∧ s.releaseMbi.fault = s.fault ∧ s.releaseMbi.power = s.power
      ∧ s.releaseMbi.port = s.port := by
  simp [State.releaseMbi]

@[simp] theorem State.startStatusTimer_frame (s : State) :
    s.startStatusTimer.pending = s.pending ∧ s.startStatusTimer.choices = s.choices ∧ s.startStatusTimer.pins = s.pins
      ∧ s.startStatusTimer.ownId = s.ownId ∧ s.startStatusTimer.config = s.config
      ∧ s.startStatusTimer.committed = s.committed ∧ s.startStatusTimer.mbi = s.mbi
      ∧ s.startStatusTimer.roster = s.roster ∧ s.startStatusTimer.closure = s.closure
      ∧ s.startStatusTimer.conn.state = s.conn.state ∧ s.startStatusTimer.conn.path = s.conn.path
      ∧ s.startStatusTimer.conn.joined = s.conn.joined ∧ s.startStatusTimer.conn.sleepPending = s.conn.sleepPending
      ∧ s.startStatusTimer.conn.settle = s.conn.settle ∧ s.startStatusTimer.conn.release = s.conn.release
      ∧ s.startStatusTimer.conn.restarted = s.conn.restarted ∧ s.startStatusTimer.switches = s.switches
      ∧ s.startStatusTimer.meas = s.meas ∧ s.startStatusTimer.charge = s.charge ∧ s.startStatusTimer.det = s.det
      ∧ s.startStatusTimer.fault = s.fault ∧ s.startStatusTimer.power = s.power ∧ s.startStatusTimer.port = s.port := by
  unfold State.startStatusTimer
  split <;> simp

@[simp] theorem State.armShort_frame (s : State) :
    s.armShort.pending = s.pending ∧ s.armShort.choices = s.choices ∧ s.armShort.pins = s.pins
      ∧ s.armShort.ownId = s.ownId
      ∧ s.armShort.config = s.config ∧ s.armShort.committed = s.committed ∧ s.armShort.mbi = s.mbi
      ∧ s.armShort.roster = s.roster ∧ s.armShort.closure = s.closure ∧ s.armShort.conn = s.conn
      ∧ s.armShort.switches = s.switches ∧ s.armShort.meas = s.meas ∧ s.armShort.charge = s.charge
      ∧ s.armShort.det.runDsg = s.det.runDsg ∧ s.armShort.det.runChg = s.det.runChg
      ∧ s.armShort.det.tempTrip = s.det.tempTrip ∧ s.armShort.det.busOv = s.det.busOv
      ∧ s.armShort.det.ocDsg = s.det.ocDsg ∧ s.armShort.det.ocChg = s.det.ocChg ∧ s.armShort.det.modOv = s.det.modOv
      ∧ s.armShort.det.modUv = s.det.modUv ∧ s.armShort.det.wakeCurrentArmed = s.det.wakeCurrentArmed
      ∧ s.armShort.det.wakeCurrentRun = s.det.wakeCurrentRun ∧ s.armShort.fault = s.fault
      ∧ s.armShort.power = s.power ∧ s.armShort.port = s.port := by
  simp [State.armShort]

@[simp] theorem State.reply_frame (r : Result) (data : List Byte) (s : State) :
    (s.reply r data).pending = s.pending ∧ (s.reply r data).choices = s.choices ∧ (s.reply r data).pins = s.pins
      ∧ (s.reply r data).ownId = s.ownId
      ∧ (s.reply r data).config = s.config ∧ (s.reply r data).committed = s.committed ∧ (s.reply r data).mbi = s.mbi
      ∧ (s.reply r data).roster = s.roster ∧ (s.reply r data).closure = s.closure ∧ (s.reply r data).conn = s.conn
      ∧ (s.reply r data).switches = s.switches ∧ (s.reply r data).meas = s.meas ∧ (s.reply r data).charge = s.charge
      ∧ (s.reply r data).det = s.det ∧ (s.reply r data).fault = s.fault ∧ (s.reply r data).power = s.power
      ∧ (s.reply r data).port.line = s.port.line ∧ (s.reply r data).port.resetPending = s.port.resetPending
      ∧ (s.reply r data).port.events = s.port.events ∧ (s.reply r data).port.enables = s.port.enables := by
  simp [State.reply]

@[simp] theorem State.othersSend_frame (s : State) :
    s.othersSend.pending = s.pending ∧ s.othersSend.choices = s.choices ∧ s.othersSend.pins = s.pins
      ∧ s.othersSend.ownId = s.ownId
      ∧ s.othersSend.config = s.config ∧ s.othersSend.committed = s.committed ∧ s.othersSend.mbi.bus = s.mbi.bus
      ∧ s.othersSend.mbi.tx = s.mbi.tx ∧ s.othersSend.mbi.list = s.mbi.list
      ∧ s.othersSend.mbi.heldStatus = s.mbi.heldStatus ∧ s.othersSend.mbi.heldTrip = s.mbi.heldTrip
      ∧ s.othersSend.mbi.withdrawal = s.mbi.withdrawal ∧ s.othersSend.mbi.tec = s.mbi.tec
      ∧ s.othersSend.mbi.recCount = s.mbi.recCount ∧ s.othersSend.mbi.rejectMuted = s.mbi.rejectMuted
      ∧ s.othersSend.mbi.permanentSilence = s.mbi.permanentSilence ∧ s.othersSend.mbi.goodCount = s.mbi.goodCount
      ∧ s.othersSend.mbi.slotDriven = s.mbi.slotDriven ∧ s.othersSend.roster = s.roster
      ∧ s.othersSend.closure = s.closure ∧ s.othersSend.conn = s.conn ∧ s.othersSend.switches = s.switches
      ∧ s.othersSend.meas = s.meas ∧ s.othersSend.charge = s.charge ∧ s.othersSend.det = s.det
      ∧ s.othersSend.fault = s.fault ∧ s.othersSend.power = s.power ∧ s.othersSend.port = s.port := by
  simp [State.othersSend]

@[simp] theorem State.offerAgainst_frame (rank : Byte) (s : State) :
    (s.offerAgainst rank).pending = s.pending ∧ (s.offerAgainst rank).choices = s.choices
      ∧ (s.offerAgainst rank).pins = s.pins
      ∧ (s.offerAgainst rank).ownId = s.ownId ∧ (s.offerAgainst rank).config = s.config
      ∧ (s.offerAgainst rank).committed = s.committed ∧ (s.offerAgainst rank).mbi.bus = s.mbi.bus
      ∧ (s.offerAgainst rank).mbi.list = s.mbi.list ∧ (s.offerAgainst rank).mbi.heldStatus = s.mbi.heldStatus
      ∧ (s.offerAgainst rank).mbi.heldTrip = s.mbi.heldTrip
      ∧ (s.offerAgainst rank).mbi.withdrawal = s.mbi.withdrawal ∧ (s.offerAgainst rank).mbi.tec = s.mbi.tec
      ∧ (s.offerAgainst rank).mbi.recCount = s.mbi.recCount
      ∧ (s.offerAgainst rank).mbi.rejectMuted = s.mbi.rejectMuted
      ∧ (s.offerAgainst rank).mbi.permanentSilence = s.mbi.permanentSilence
      ∧ (s.offerAgainst rank).mbi.goodCount = s.mbi.goodCount
      ∧ (s.offerAgainst rank).mbi.slotDriven = s.mbi.slotDriven ∧ (s.offerAgainst rank).roster = s.roster
      ∧ (s.offerAgainst rank).closure = s.closure ∧ (s.offerAgainst rank).conn = s.conn
      ∧ (s.offerAgainst rank).switches = s.switches ∧ (s.offerAgainst rank).meas = s.meas
      ∧ (s.offerAgainst rank).charge = s.charge ∧ (s.offerAgainst rank).det = s.det
      ∧ (s.offerAgainst rank).fault = s.fault ∧ (s.offerAgainst rank).power = s.power
      ∧ (s.offerAgainst rank).port = s.port := by
  unfold State.offerAgainst
  (repeat' split) <;> simp

@[simp] theorem State.countGood_frame (src : StationId) (s : State) :
    (s.countGood src).pending = s.pending ∧ (s.countGood src).choices = s.choices ∧ (s.countGood src).pins = s.pins
      ∧ (s.countGood src).ownId = s.ownId ∧ (s.countGood src).config = s.config
      ∧ (s.countGood src).committed = s.committed ∧ (s.countGood src).mbi.bus = s.mbi.bus
      ∧ (s.countGood src).mbi.line = s.mbi.line ∧ (s.countGood src).mbi.tx = s.mbi.tx
      ∧ (s.countGood src).mbi.list = s.mbi.list ∧ (s.countGood src).mbi.heldStatus = s.mbi.heldStatus
      ∧ (s.countGood src).mbi.heldTrip = s.mbi.heldTrip ∧ (s.countGood src).mbi.withdrawal = s.mbi.withdrawal
      ∧ (s.countGood src).mbi.tec = s.mbi.tec ∧ (s.countGood src).mbi.recCount = s.mbi.recCount
      ∧ (s.countGood src).mbi.rejectMuted = s.mbi.rejectMuted
      ∧ (s.countGood src).mbi.permanentSilence = s.mbi.permanentSilence
      ∧ (s.countGood src).mbi.silenceTimer = s.mbi.silenceTimer
      ∧ (s.countGood src).mbi.slotDriven = s.mbi.slotDriven ∧ (s.countGood src).roster = s.roster
      ∧ (s.countGood src).closure = s.closure ∧ (s.countGood src).conn = s.conn
      ∧ (s.countGood src).switches = s.switches ∧ (s.countGood src).meas = s.meas
      ∧ (s.countGood src).charge = s.charge ∧ (s.countGood src).det = s.det ∧ (s.countGood src).fault = s.fault
      ∧ (s.countGood src).power = s.power ∧ (s.countGood src).port = s.port := by
  unfold State.countGood
  split <;> simp

@[simp] theorem State.recordClaim_frame (src : StationId) (p : ClaimPayload) (s : State) :
    (s.recordClaim src p).pending = s.pending ∧ (s.recordClaim src p).choices = s.choices
      ∧ (s.recordClaim src p).pins = s.pins
      ∧ (s.recordClaim src p).ownId = s.ownId ∧ (s.recordClaim src p).config = s.config
      ∧ (s.recordClaim src p).committed = s.committed ∧ (s.recordClaim src p).mbi = s.mbi
      ∧ (s.recordClaim src p).roster = s.roster ∧ (s.recordClaim src p).closure.claimNumber = s.closure.claimNumber
      ∧ (s.recordClaim src p).closure.claim = s.closure.claim
      ∧ (s.recordClaim src p).closure.lastOutcome = s.closure.lastOutcome
      ∧ (s.recordClaim src p).closure.holdOff = s.closure.holdOff
      ∧ (s.recordClaim src p).closure.quiet = s.closure.quiet ∧ (s.recordClaim src p).conn = s.conn
      ∧ (s.recordClaim src p).switches = s.switches ∧ (s.recordClaim src p).meas = s.meas
      ∧ (s.recordClaim src p).charge = s.charge ∧ (s.recordClaim src p).det = s.det
      ∧ (s.recordClaim src p).fault = s.fault ∧ (s.recordClaim src p).power = s.power
      ∧ (s.recordClaim src p).port = s.port := by
  unfold State.recordClaim
  split <;> simp

@[simp] theorem State.clearRecordFor_frame (id : StationId) (number : Byte) (s : State) :
    (s.clearRecordFor id number).pending = s.pending ∧ (s.clearRecordFor id number).choices = s.choices
      ∧ (s.clearRecordFor id number).pins = s.pins
      ∧ (s.clearRecordFor id number).ownId = s.ownId ∧ (s.clearRecordFor id number).config = s.config
      ∧ (s.clearRecordFor id number).committed = s.committed ∧ (s.clearRecordFor id number).mbi = s.mbi
      ∧ (s.clearRecordFor id number).roster = s.roster
      ∧ (s.clearRecordFor id number).closure.claimNumber = s.closure.claimNumber
      ∧ (s.clearRecordFor id number).closure.claim = s.closure.claim
      ∧ (s.clearRecordFor id number).closure.lastOutcome = s.closure.lastOutcome
      ∧ (s.clearRecordFor id number).closure.holdOff = s.closure.holdOff
      ∧ (s.clearRecordFor id number).closure.quiet = s.closure.quiet ∧ (s.clearRecordFor id number).conn = s.conn
      ∧ (s.clearRecordFor id number).switches = s.switches ∧ (s.clearRecordFor id number).meas = s.meas
      ∧ (s.clearRecordFor id number).charge = s.charge ∧ (s.clearRecordFor id number).det = s.det
      ∧ (s.clearRecordFor id number).fault = s.fault ∧ (s.clearRecordFor id number).power = s.power
      ∧ (s.clearRecordFor id number).port = s.port := by
  unfold State.clearRecordFor
  (repeat' split) <;> simp

@[simp] theorem State.storeSample_frame (x : Sample) (s : State) :
    (s.storeSample x).pending = s.pending ∧ (s.storeSample x).choices = s.choices ∧ (s.storeSample x).pins = s.pins
      ∧ (s.storeSample x).ownId = s.ownId ∧ (s.storeSample x).config = s.config
      ∧ (s.storeSample x).committed = s.committed ∧ (s.storeSample x).mbi = s.mbi
      ∧ (s.storeSample x).roster = s.roster ∧ (s.storeSample x).closure = s.closure
      ∧ (s.storeSample x).conn = s.conn ∧ (s.storeSample x).switches = s.switches
      ∧ (s.storeSample x).charge = s.charge ∧ (s.storeSample x).det = s.det ∧ (s.storeSample x).fault = s.fault
      ∧ (s.storeSample x).power = s.power ∧ (s.storeSample x).port = s.port := by
  simp [State.storeSample]

@[simp] theorem State.applyInitialLevel_frame (s : State) :
    s.applyInitialLevel.pending = s.pending ∧ s.applyInitialLevel.choices = s.choices
      ∧ s.applyInitialLevel.pins = s.pins
      ∧ s.applyInitialLevel.ownId = s.ownId ∧ s.applyInitialLevel.config = s.config
      ∧ s.applyInitialLevel.committed = s.committed ∧ s.applyInitialLevel.mbi = s.mbi
      ∧ s.applyInitialLevel.roster = s.roster ∧ s.applyInitialLevel.closure = s.closure
      ∧ s.applyInitialLevel.conn = s.conn ∧ s.applyInitialLevel.switches = s.switches
      ∧ s.applyInitialLevel.meas = s.meas ∧ s.applyInitialLevel.det = s.det ∧ s.applyInitialLevel.fault = s.fault
      ∧ s.applyInitialLevel.power = s.power ∧ s.applyInitialLevel.port = s.port := by
  unfold State.applyInitialLevel
  split <;> simp

end Sys2Proof.Machine
end

