-- ==== Sys2Proof/Laws/Frames.lean ====
section
/-! SUPPORT. What each shared operation leaves unchanged: claims, trips, onsets, clearances, holds, SILENT, sleep, start-up and the resets, as simp lemmas, in the order in which the operations call one another. -/

namespace Sys2Proof.Machine

@[simp] theorem State.changeConn_frame (new : ConnState) (path : Path) (s : State) :
    (s.changeConn new path).pending = s.pending ∧ (s.changeConn new path).choices = s.choices
      ∧ (s.changeConn new path).pins = s.pins
      ∧ (s.changeConn new path).ownId = s.ownId ∧ (s.changeConn new path).config = s.config
      ∧ (s.changeConn new path).committed = s.committed ∧ (s.changeConn new path).mbi.bus = s.mbi.bus
      ∧ (s.changeConn new path).mbi.line = s.mbi.line ∧ (s.changeConn new path).mbi.tx = s.mbi.tx
      ∧ (s.changeConn new path).mbi.withdrawal = s.mbi.withdrawal ∧ (s.changeConn new path).mbi.tec = s.mbi.tec
      ∧ (s.changeConn new path).mbi.recCount = s.mbi.recCount
      ∧ (s.changeConn new path).mbi.rejectMuted = s.mbi.rejectMuted
      ∧ (s.changeConn new path).mbi.permanentSilence = s.mbi.permanentSilence
      ∧ (s.changeConn new path).mbi.goodCount = s.mbi.goodCount
      ∧ (s.changeConn new path).mbi.silenceTimer = s.mbi.silenceTimer
      ∧ (s.changeConn new path).mbi.slotDriven = s.mbi.slotDriven ∧ (s.changeConn new path).roster = s.roster
      ∧ (s.changeConn new path).closure.claimNumber = s.closure.claimNumber
      ∧ (s.changeConn new path).closure.claim = s.closure.claim
      ∧ (s.changeConn new path).closure.lastOutcome = s.closure.lastOutcome
      ∧ (s.changeConn new path).closure.holdOff = s.closure.holdOff
      ∧ (s.changeConn new path).closure.quiet = s.closure.quiet
      ∧ (s.changeConn new path).conn.joined = s.conn.joined
      ∧ (s.changeConn new path).conn.sleepPending = s.conn.sleepPending
      ∧ (s.changeConn new path).conn.statusTimer = s.conn.statusTimer ∧ (s.changeConn new path).meas = s.meas
      ∧ (s.changeConn new path).charge = s.charge ∧ (s.changeConn new path).det = s.det
      ∧ (s.changeConn new path).fault = s.fault ∧ (s.changeConn new path).power = s.power
      ∧ (s.changeConn new path).port.line = s.port.line ∧ (s.changeConn new path).port.response = s.port.response
      ∧ (s.changeConn new path).port.resetPending = s.port.resetPending
      ∧ (s.changeConn new path).port.enables = s.port.enables := by
  unfold State.changeConn
  split <;> simp

@[simp] theorem State.followPathSources_frame (s : State) :
    s.followPathSources.pending = s.pending ∧ s.followPathSources.choices = s.choices
      ∧ s.followPathSources.pins = s.pins
      ∧ s.followPathSources.ownId = s.ownId ∧ s.followPathSources.config = s.config
      ∧ s.followPathSources.committed = s.committed ∧ s.followPathSources.mbi.bus = s.mbi.bus
      ∧ s.followPathSources.mbi.line = s.mbi.line ∧ s.followPathSources.mbi.tx = s.mbi.tx
      ∧ s.followPathSources.mbi.withdrawal = s.mbi.withdrawal ∧ s.followPathSources.mbi.tec = s.mbi.tec
      ∧ s.followPathSources.mbi.recCount = s.mbi.recCount ∧ s.followPathSources.mbi.rejectMuted = s.mbi.rejectMuted
      ∧ s.followPathSources.mbi.permanentSilence = s.mbi.permanentSilence
      ∧ s.followPathSources.mbi.goodCount = s.mbi.goodCount
      ∧ s.followPathSources.mbi.silenceTimer = s.mbi.silenceTimer
      ∧ s.followPathSources.mbi.slotDriven = s.mbi.slotDriven ∧ s.followPathSources.roster = s.roster
      ∧ s.followPathSources.closure = s.closure ∧ s.followPathSources.conn.state = s.conn.state
      ∧ s.followPathSources.conn.joined = s.conn.joined
      ∧ s.followPathSources.conn.sleepPending = s.conn.sleepPending
      ∧ s.followPathSources.conn.settle = s.conn.settle ∧ s.followPathSources.conn.release = s.conn.release
      ∧ s.followPathSources.conn.statusTimer = s.conn.statusTimer
      ∧ s.followPathSources.conn.restarted = s.conn.restarted ∧ s.followPathSources.meas = s.meas
      ∧ s.followPathSources.charge = s.charge ∧ s.followPathSources.det = s.det
      ∧ s.followPathSources.fault = s.fault ∧ s.followPathSources.power = s.power
      ∧ s.followPathSources.port.line = s.port.line ∧ s.followPathSources.port.response = s.port.response
      ∧ s.followPathSources.port.resetPending = s.port.resetPending
      ∧ s.followPathSources.port.enables = s.port.enables := by
  unfold State.followPathSources
  dsimp only
  (repeat' split) <;> simp

@[simp] theorem State.failClaim_frame (o : ClaimOutcome) (s : State) :
    (s.failClaim o).pending = s.pending ∧ (s.failClaim o).choices = s.choices ∧ (s.failClaim o).pins = s.pins
      ∧ (s.failClaim o).ownId = s.ownId
      ∧ (s.failClaim o).config = s.config ∧ (s.failClaim o).committed = s.committed
      ∧ (s.failClaim o).mbi.bus = s.mbi.bus ∧ (s.failClaim o).mbi.line = s.mbi.line
      ∧ (s.failClaim o).mbi.tx = s.mbi.tx ∧ (s.failClaim o).mbi.withdrawal = s.mbi.withdrawal
      ∧ (s.failClaim o).mbi.tec = s.mbi.tec ∧ (s.failClaim o).mbi.recCount = s.mbi.recCount
      ∧ (s.failClaim o).mbi.rejectMuted = s.mbi.rejectMuted
      ∧ (s.failClaim o).mbi.permanentSilence = s.mbi.permanentSilence
      ∧ (s.failClaim o).mbi.goodCount = s.mbi.goodCount ∧ (s.failClaim o).mbi.silenceTimer = s.mbi.silenceTimer
      ∧ (s.failClaim o).mbi.slotDriven = s.mbi.slotDriven ∧ (s.failClaim o).roster = s.roster
      ∧ (s.failClaim o).closure.claimNumber = s.closure.claimNumber
      ∧ (s.failClaim o).closure.quiet = s.closure.quiet ∧ (s.failClaim o).conn.joined = s.conn.joined
      ∧ (s.failClaim o).conn.sleepPending = s.conn.sleepPending
      ∧ (s.failClaim o).conn.statusTimer = s.conn.statusTimer ∧ (s.failClaim o).meas = s.meas
      ∧ (s.failClaim o).charge = s.charge ∧ (s.failClaim o).det = s.det ∧ (s.failClaim o).fault = s.fault
      ∧ (s.failClaim o).power = s.power ∧ (s.failClaim o).port.line = s.port.line
      ∧ (s.failClaim o).port.response = s.port.response ∧ (s.failClaim o).port.resetPending = s.port.resetPending
      ∧ (s.failClaim o).port.enables = s.port.enables := by
  simp [State.failClaim]

@[simp] theorem State.abortClaim_frame (o : ClaimOutcome) (s : State) :
    (s.abortClaim o).pending = s.pending ∧ (s.abortClaim o).choices = s.choices ∧ (s.abortClaim o).pins = s.pins
      ∧ (s.abortClaim o).ownId = s.ownId
      ∧ (s.abortClaim o).config = s.config ∧ (s.abortClaim o).committed = s.committed
      ∧ (s.abortClaim o).mbi.bus = s.mbi.bus ∧ (s.abortClaim o).mbi.line = s.mbi.line
      ∧ (s.abortClaim o).mbi.tx = s.mbi.tx ∧ (s.abortClaim o).mbi.heldStatus = s.mbi.heldStatus
      ∧ (s.abortClaim o).mbi.heldTrip = s.mbi.heldTrip ∧ (s.abortClaim o).mbi.tec = s.mbi.tec
      ∧ (s.abortClaim o).mbi.recCount = s.mbi.recCount ∧ (s.abortClaim o).mbi.rejectMuted = s.mbi.rejectMuted
      ∧ (s.abortClaim o).mbi.permanentSilence = s.mbi.permanentSilence
      ∧ (s.abortClaim o).mbi.goodCount = s.mbi.goodCount ∧ (s.abortClaim o).mbi.silenceTimer = s.mbi.silenceTimer
      ∧ (s.abortClaim o).mbi.slotDriven = s.mbi.slotDriven ∧ (s.abortClaim o).roster = s.roster
      ∧ (s.abortClaim o).closure.record = s.closure.record
      ∧ (s.abortClaim o).closure.claimNumber = s.closure.claimNumber
      ∧ (s.abortClaim o).closure.holdOff = s.closure.holdOff ∧ (s.abortClaim o).closure.quiet = s.closure.quiet
      ∧ (s.abortClaim o).conn = s.conn ∧ (s.abortClaim o).switches = s.switches ∧ (s.abortClaim o).meas = s.meas
      ∧ (s.abortClaim o).charge = s.charge ∧ (s.abortClaim o).det = s.det ∧ (s.abortClaim o).fault = s.fault
      ∧ (s.abortClaim o).power = s.power ∧ (s.abortClaim o).port = s.port := by
  unfold State.abortClaim
  (repeat' split) <;> simp

@[simp] theorem State.enterClosing_frame (s : State) :
    s.enterClosing.pending = s.pending ∧ s.enterClosing.choices = s.choices ∧ s.enterClosing.pins = s.pins
      ∧ s.enterClosing.ownId = s.ownId
      ∧ s.enterClosing.config = s.config ∧ s.enterClosing.committed = s.committed
      ∧ s.enterClosing.mbi.bus = s.mbi.bus ∧ s.enterClosing.mbi.line = s.mbi.line ∧ s.enterClosing.mbi.tx = s.mbi.tx
      ∧ s.enterClosing.mbi.withdrawal = s.mbi.withdrawal ∧ s.enterClosing.mbi.tec = s.mbi.tec
      ∧ s.enterClosing.mbi.recCount = s.mbi.recCount ∧ s.enterClosing.mbi.rejectMuted = s.mbi.rejectMuted
      ∧ s.enterClosing.mbi.permanentSilence = s.mbi.permanentSilence
      ∧ s.enterClosing.mbi.goodCount = s.mbi.goodCount ∧ s.enterClosing.mbi.silenceTimer = s.mbi.silenceTimer
      ∧ s.enterClosing.mbi.slotDriven = s.mbi.slotDriven ∧ s.enterClosing.roster = s.roster
      ∧ s.enterClosing.closure.claimNumber = s.closure.claimNumber ∧ s.enterClosing.closure.claim = s.closure.claim
      ∧ s.enterClosing.closure.lastOutcome = s.closure.lastOutcome
      ∧ s.enterClosing.closure.holdOff = s.closure.holdOff ∧ s.enterClosing.closure.quiet = s.closure.quiet
      ∧ s.enterClosing.conn.joined = s.conn.joined ∧ s.enterClosing.conn.sleepPending = s.conn.sleepPending
      ∧ s.enterClosing.conn.statusTimer = s.conn.statusTimer ∧ s.enterClosing.meas = s.meas
      ∧ s.enterClosing.charge = s.charge ∧ s.enterClosing.det = s.det
      ∧ s.enterClosing.fault.register = s.fault.register ∧ s.enterClosing.fault.portHolds = s.fault.portHolds
      ∧ s.enterClosing.fault.lockout = s.fault.lockout ∧ s.enterClosing.fault.tripCounter = s.fault.tripCounter
      ∧ s.enterClosing.fault.history = s.fault.history ∧ s.enterClosing.power = s.power
      ∧ s.enterClosing.port.line = s.port.line ∧ s.enterClosing.port.response = s.port.response
      ∧ s.enterClosing.port.resetPending = s.port.resetPending ∧ s.enterClosing.port.enables = s.port.enables := by
  simp [State.enterClosing]

@[simp] theorem State.windowTest_frame (s : State) :
    s.windowTest.pending = s.pending ∧ s.windowTest.choices = s.choices ∧ s.windowTest.pins = s.pins
      ∧ s.windowTest.ownId = s.ownId
      ∧ s.windowTest.config = s.config ∧ s.windowTest.committed = s.committed ∧ s.windowTest.mbi.bus = s.mbi.bus
      ∧ s.windowTest.mbi.line = s.mbi.line ∧ s.windowTest.mbi.tx = s.mbi.tx
      ∧ s.windowTest.mbi.withdrawal = s.mbi.withdrawal ∧ s.windowTest.mbi.tec = s.mbi.tec
      ∧ s.windowTest.mbi.recCount = s.mbi.recCount ∧ s.windowTest.mbi.rejectMuted = s.mbi.rejectMuted
      ∧ s.windowTest.mbi.permanentSilence = s.mbi.permanentSilence ∧ s.windowTest.mbi.goodCount = s.mbi.goodCount
      ∧ s.windowTest.mbi.silenceTimer = s.mbi.silenceTimer ∧ s.windowTest.mbi.slotDriven = s.mbi.slotDriven
      ∧ s.windowTest.roster = s.roster ∧ s.windowTest.closure.claimNumber = s.closure.claimNumber
      ∧ s.windowTest.closure.quiet = s.closure.quiet ∧ s.windowTest.conn.joined = s.conn.joined
      ∧ s.windowTest.conn.sleepPending = s.conn.sleepPending ∧ s.windowTest.conn.statusTimer = s.conn.statusTimer
      ∧ s.windowTest.meas = s.meas ∧ s.windowTest.charge = s.charge ∧ s.windowTest.det = s.det
      ∧ s.windowTest.fault.register = s.fault.register ∧ s.windowTest.fault.portHolds = s.fault.portHolds
      ∧ s.windowTest.fault.lockout = s.fault.lockout ∧ s.windowTest.fault.tripCounter = s.fault.tripCounter
      ∧ s.windowTest.fault.history = s.fault.history ∧ s.windowTest.power = s.power
      ∧ s.windowTest.port.line = s.port.line ∧ s.windowTest.port.response = s.port.response
      ∧ s.windowTest.port.resetPending = s.port.resetPending ∧ s.windowTest.port.enables = s.port.enables := by
  unfold State.windowTest
  dsimp only
  (repeat' split) <;> simp

@[simp] theorem State.captureClaim_frame (c : Claim) (s : State) :
    (s.captureClaim c).pending = s.pending ∧ (s.captureClaim c).choices = s.choices ∧ (s.captureClaim c).pins = s.pins
      ∧ (s.captureClaim c).ownId = s.ownId ∧ (s.captureClaim c).config = s.config
      ∧ (s.captureClaim c).committed = s.committed ∧ (s.captureClaim c).mbi.bus = s.mbi.bus
      ∧ (s.captureClaim c).mbi.line = s.mbi.line ∧ (s.captureClaim c).mbi.tx = s.mbi.tx
      ∧ (s.captureClaim c).mbi.withdrawal = s.mbi.withdrawal ∧ (s.captureClaim c).mbi.tec = s.mbi.tec
      ∧ (s.captureClaim c).mbi.recCount = s.mbi.recCount ∧ (s.captureClaim c).mbi.rejectMuted = s.mbi.rejectMuted
      ∧ (s.captureClaim c).mbi.permanentSilence = s.mbi.permanentSilence
      ∧ (s.captureClaim c).mbi.goodCount = s.mbi.goodCount
      ∧ (s.captureClaim c).mbi.silenceTimer = s.mbi.silenceTimer
      ∧ (s.captureClaim c).mbi.slotDriven = s.mbi.slotDriven ∧ (s.captureClaim c).roster = s.roster
      ∧ (s.captureClaim c).closure.claimNumber = s.closure.claimNumber
      ∧ (s.captureClaim c).closure.quiet = s.closure.quiet ∧ (s.captureClaim c).conn.joined = s.conn.joined
      ∧ (s.captureClaim c).conn.sleepPending = s.conn.sleepPending
      ∧ (s.captureClaim c).conn.statusTimer = s.conn.statusTimer ∧ (s.captureClaim c).meas = s.meas
      ∧ (s.captureClaim c).charge = s.charge ∧ (s.captureClaim c).det = s.det
      ∧ (s.captureClaim c).fault.register = s.fault.register
      ∧ (s.captureClaim c).fault.portHolds = s.fault.portHolds ∧ (s.captureClaim c).fault.lockout = s.fault.lockout
      ∧ (s.captureClaim c).fault.tripCounter = s.fault.tripCounter
      ∧ (s.captureClaim c).fault.history = s.fault.history ∧ (s.captureClaim c).power = s.power
      ∧ (s.captureClaim c).port.line = s.port.line ∧ (s.captureClaim c).port.response = s.port.response
      ∧ (s.captureClaim c).port.resetPending = s.port.resetPending
      ∧ (s.captureClaim c).port.enables = s.port.enables := by
  unfold State.captureClaim
  dsimp only
  (repeat' split) <;> simp

@[simp] theorem State.setSource_frame (src : Source) (x : SourceRecord) (s : State) :
    (s.setSource src x).pending = s.pending ∧ (s.setSource src x).choices = s.choices
      ∧ (s.setSource src x).pins = s.pins
      ∧ (s.setSource src x).ownId = s.ownId ∧ (s.setSource src x).config = s.config
      ∧ (s.setSource src x).committed = s.committed ∧ (s.setSource src x).mbi.bus = s.mbi.bus
      ∧ (s.setSource src x).mbi.line = s.mbi.line ∧ (s.setSource src x).mbi.tx = s.mbi.tx
      ∧ (s.setSource src x).mbi.withdrawal = s.mbi.withdrawal ∧ (s.setSource src x).mbi.tec = s.mbi.tec
      ∧ (s.setSource src x).mbi.recCount = s.mbi.recCount ∧ (s.setSource src x).mbi.rejectMuted = s.mbi.rejectMuted
      ∧ (s.setSource src x).mbi.permanentSilence = s.mbi.permanentSilence
      ∧ (s.setSource src x).mbi.goodCount = s.mbi.goodCount
      ∧ (s.setSource src x).mbi.silenceTimer = s.mbi.silenceTimer
      ∧ (s.setSource src x).mbi.slotDriven = s.mbi.slotDriven ∧ (s.setSource src x).roster = s.roster
      ∧ (s.setSource src x).closure = s.closure ∧ (s.setSource src x).conn = s.conn
      ∧ (s.setSource src x).switches = s.switches ∧ (s.setSource src x).meas = s.meas
      ∧ (s.setSource src x).charge = s.charge ∧ (s.setSource src x).det = s.det
      ∧ (s.setSource src x).fault.portHolds = s.fault.portHolds
      ∧ (s.setSource src x).fault.closingHold = s.fault.closingHold
      ∧ (s.setSource src x).fault.lockout = s.fault.lockout
      ∧ (s.setSource src x).fault.tripCounter = s.fault.tripCounter
      ∧ (s.setSource src x).fault.history = s.fault.history ∧ (s.setSource src x).power = s.power
      ∧ (s.setSource src x).port = s.port := by
  unfold State.setSource
  dsimp only
  (repeat' split) <;> simp

@[simp] theorem State.cancelSleep_frame (s : State) :
    s.cancelSleep.pending = s.pending ∧ s.cancelSleep.choices = s.choices ∧ s.cancelSleep.pins = s.pins
      ∧ s.cancelSleep.ownId = s.ownId
      ∧ s.cancelSleep.config = s.config ∧ s.cancelSleep.committed = s.committed ∧ s.cancelSleep.mbi.bus = s.mbi.bus
      ∧ s.cancelSleep.mbi.line = s.mbi.line ∧ s.cancelSleep.mbi.tx = s.mbi.tx
      ∧ s.cancelSleep.mbi.withdrawal = s.mbi.withdrawal ∧ s.cancelSleep.mbi.tec = s.mbi.tec
      ∧ s.cancelSleep.mbi.recCount = s.mbi.recCount ∧ s.cancelSleep.mbi.rejectMuted = s.mbi.rejectMuted
      ∧ s.cancelSleep.mbi.permanentSilence = s.mbi.permanentSilence ∧ s.cancelSleep.mbi.goodCount = s.mbi.goodCount
      ∧ s.cancelSleep.mbi.silenceTimer = s.mbi.silenceTimer ∧ s.cancelSleep.mbi.slotDriven = s.mbi.slotDriven
      ∧ s.cancelSleep.roster = s.roster ∧ s.cancelSleep.closure = s.closure
      ∧ s.cancelSleep.conn.state = s.conn.state ∧ s.cancelSleep.conn.path = s.conn.path
      ∧ s.cancelSleep.conn.joined = s.conn.joined ∧ s.cancelSleep.conn.settle = s.conn.settle
      ∧ s.cancelSleep.conn.release = s.conn.release ∧ s.cancelSleep.conn.statusTimer = s.conn.statusTimer
      ∧ s.cancelSleep.conn.restarted = s.conn.restarted ∧ s.cancelSleep.switches = s.switches
      ∧ s.cancelSleep.meas = s.meas ∧ s.cancelSleep.charge = s.charge ∧ s.cancelSleep.det = s.det
      ∧ s.cancelSleep.fault = s.fault ∧ s.cancelSleep.power = s.power ∧ s.cancelSleep.port.line = s.port.line
      ∧ s.cancelSleep.port.response = s.port.response ∧ s.cancelSleep.port.resetPending = s.port.resetPending
      ∧ s.cancelSleep.port.enables = s.port.enables := by
  unfold State.cancelSleep
  split <;> simp

@[simp] theorem State.tripCore_frame (d : TripCause) (s : State) :
    (s.tripCore d).pending = s.pending ∧ (s.tripCore d).choices = s.choices ∧ (s.tripCore d).pins = s.pins
      ∧ (s.tripCore d).ownId = s.ownId
      ∧ (s.tripCore d).config = s.config ∧ (s.tripCore d).committed = s.committed
      ∧ (s.tripCore d).mbi.bus = s.mbi.bus ∧ (s.tripCore d).mbi.line = s.mbi.line ∧ (s.tripCore d).mbi.tx = s.mbi.tx
      ∧ (s.tripCore d).mbi.tec = s.mbi.tec ∧ (s.tripCore d).mbi.recCount = s.mbi.recCount
      ∧ (s.tripCore d).mbi.rejectMuted = s.mbi.rejectMuted
      ∧ (s.tripCore d).mbi.permanentSilence = s.mbi.permanentSilence
      ∧ (s.tripCore d).mbi.goodCount = s.mbi.goodCount ∧ (s.tripCore d).mbi.silenceTimer = s.mbi.silenceTimer
      ∧ (s.tripCore d).mbi.slotDriven = s.mbi.slotDriven ∧ (s.tripCore d).roster = s.roster
      ∧ (s.tripCore d).closure.claimNumber = s.closure.claimNumber
      ∧ (s.tripCore d).closure.holdOff = s.closure.holdOff ∧ (s.tripCore d).conn.joined = s.conn.joined
      ∧ (s.tripCore d).conn.sleepPending = s.conn.sleepPending
      ∧ (s.tripCore d).conn.statusTimer = s.conn.statusTimer ∧ (s.tripCore d).meas = s.meas
      ∧ (s.tripCore d).charge = s.charge ∧ (s.tripCore d).det = s.det
      ∧ (s.tripCore d).fault.register = s.fault.register ∧ (s.tripCore d).fault.portHolds = s.fault.portHolds
      ∧ (s.tripCore d).fault.closingHold = s.fault.closingHold ∧ (s.tripCore d).power = s.power
      ∧ (s.tripCore d).port.line = s.port.line ∧ (s.tripCore d).port.response = s.port.response
      ∧ (s.tripCore d).port.resetPending = s.port.resetPending ∧ (s.tripCore d).port.enables = s.port.enables := by
  unfold State.tripCore
  split <;> simp

@[simp] theorem State.postponedOverCurrent_frame (src : Source) (s : State) :
    (s.postponedOverCurrent src).pending = s.pending ∧ (s.postponedOverCurrent src).choices = s.choices
      ∧ (s.postponedOverCurrent src).pins = s.pins
      ∧ (s.postponedOverCurrent src).ownId = s.ownId ∧ (s.postponedOverCurrent src).config = s.config
      ∧ (s.postponedOverCurrent src).committed = s.committed ∧ (s.postponedOverCurrent src).mbi.bus = s.mbi.bus
      ∧ (s.postponedOverCurrent src).mbi.line = s.mbi.line ∧ (s.postponedOverCurrent src).mbi.tx = s.mbi.tx
      ∧ (s.postponedOverCurrent src).mbi.tec = s.mbi.tec
      ∧ (s.postponedOverCurrent src).mbi.recCount = s.mbi.recCount
      ∧ (s.postponedOverCurrent src).mbi.rejectMuted = s.mbi.rejectMuted
      ∧ (s.postponedOverCurrent src).mbi.permanentSilence = s.mbi.permanentSilence
      ∧ (s.postponedOverCurrent src).mbi.goodCount = s.mbi.goodCount
      ∧ (s.postponedOverCurrent src).mbi.silenceTimer = s.mbi.silenceTimer
      ∧ (s.postponedOverCurrent src).mbi.slotDriven = s.mbi.slotDriven
      ∧ (s.postponedOverCurrent src).roster = s.roster
      ∧ (s.postponedOverCurrent src).closure.claimNumber = s.closure.claimNumber
      ∧ (s.postponedOverCurrent src).closure.holdOff = s.closure.holdOff
      ∧ (s.postponedOverCurrent src).conn.joined = s.conn.joined
      ∧ (s.postponedOverCurrent src).conn.statusTimer = s.conn.statusTimer
      ∧ (s.postponedOverCurrent src).meas = s.meas ∧ (s.postponedOverCurrent src).charge = s.charge
      ∧ (s.postponedOverCurrent src).det = s.det ∧ (s.postponedOverCurrent src).fault.portHolds = s.fault.portHolds
      ∧ (s.postponedOverCurrent src).fault.closingHold = s.fault.closingHold
      ∧ (s.postponedOverCurrent src).power = s.power ∧ (s.postponedOverCurrent src).port.line = s.port.line
      ∧ (s.postponedOverCurrent src).port.response = s.port.response
      ∧ (s.postponedOverCurrent src).port.resetPending = s.port.resetPending
      ∧ (s.postponedOverCurrent src).port.enables = s.port.enables := by
  unfold State.postponedOverCurrent
  dsimp only
  (repeat' split) <;> simp

@[simp] theorem State.liftClosingHold_frame (s : State) :
    s.liftClosingHold.pending = s.pending ∧ s.liftClosingHold.choices = s.choices ∧ s.liftClosingHold.pins = s.pins
      ∧ s.liftClosingHold.ownId = s.ownId ∧ s.liftClosingHold.config = s.config
      ∧ s.liftClosingHold.committed = s.committed ∧ s.liftClosingHold.mbi.bus = s.mbi.bus
      ∧ s.liftClosingHold.mbi.line = s.mbi.line ∧ s.liftClosingHold.mbi.tx = s.mbi.tx
      ∧ s.liftClosingHold.mbi.tec = s.mbi.tec ∧ s.liftClosingHold.mbi.recCount = s.mbi.recCount
      ∧ s.liftClosingHold.mbi.rejectMuted = s.mbi.rejectMuted
      ∧ s.liftClosingHold.mbi.permanentSilence = s.mbi.permanentSilence
      ∧ s.liftClosingHold.mbi.goodCount = s.mbi.goodCount ∧ s.liftClosingHold.mbi.silenceTimer = s.mbi.silenceTimer
      ∧ s.liftClosingHold.mbi.slotDriven = s.mbi.slotDriven ∧ s.liftClosingHold.roster = s.roster
      ∧ s.liftClosingHold.closure.claimNumber = s.closure.claimNumber
      ∧ s.liftClosingHold.closure.holdOff = s.closure.holdOff ∧ s.liftClosingHold.conn.joined = s.conn.joined
      ∧ s.liftClosingHold.conn.statusTimer = s.conn.statusTimer ∧ s.liftClosingHold.meas = s.meas
      ∧ s.liftClosingHold.charge = s.charge ∧ s.liftClosingHold.det = s.det
      ∧ s.liftClosingHold.fault.portHolds = s.fault.portHolds ∧ s.liftClosingHold.power = s.power
      ∧ s.liftClosingHold.port.line = s.port.line ∧ s.liftClosingHold.port.response = s.port.response
      ∧ s.liftClosingHold.port.resetPending = s.port.resetPending
      ∧ s.liftClosingHold.port.enables = s.port.enables := by
  unfold State.liftClosingHold
  split <;> simp

@[simp] theorem State.takeTrip_frame (d : TripCause) (s : State) :
    (s.takeTrip d).pending = s.pending ∧ (s.takeTrip d).choices = s.choices ∧ (s.takeTrip d).pins = s.pins
      ∧ (s.takeTrip d).ownId = s.ownId
      ∧ (s.takeTrip d).config = s.config ∧ (s.takeTrip d).committed = s.committed
      ∧ (s.takeTrip d).mbi.bus = s.mbi.bus ∧ (s.takeTrip d).mbi.line = s.mbi.line ∧ (s.takeTrip d).mbi.tx = s.mbi.tx
      ∧ (s.takeTrip d).mbi.tec = s.mbi.tec ∧ (s.takeTrip d).mbi.recCount = s.mbi.recCount
      ∧ (s.takeTrip d).mbi.rejectMuted = s.mbi.rejectMuted
      ∧ (s.takeTrip d).mbi.permanentSilence = s.mbi.permanentSilence
      ∧ (s.takeTrip d).mbi.goodCount = s.mbi.goodCount ∧ (s.takeTrip d).mbi.silenceTimer = s.mbi.silenceTimer
      ∧ (s.takeTrip d).mbi.slotDriven = s.mbi.slotDriven ∧ (s.takeTrip d).roster = s.roster
      ∧ (s.takeTrip d).closure.claimNumber = s.closure.claimNumber
      ∧ (s.takeTrip d).closure.holdOff = s.closure.holdOff ∧ (s.takeTrip d).conn.joined = s.conn.joined
      ∧ (s.takeTrip d).conn.statusTimer = s.conn.statusTimer ∧ (s.takeTrip d).meas = s.meas
      ∧ (s.takeTrip d).charge = s.charge ∧ (s.takeTrip d).det = s.det
      ∧ (s.takeTrip d).fault.portHolds = s.fault.portHolds ∧ (s.takeTrip d).power = s.power
      ∧ (s.takeTrip d).port.line = s.port.line ∧ (s.takeTrip d).port.response = s.port.response
      ∧ (s.takeTrip d).port.resetPending = s.port.resetPending ∧ (s.takeTrip d).port.enables = s.port.enables := by
  unfold State.takeTrip
  split <;> simp

@[simp] theorem State.takeAction_frame (src : Source) (value : Half) (reported : Scope) (s : State) :
    (s.takeAction src value reported).pending = s.pending ∧ (s.takeAction src value reported).choices = s.choices
      ∧ (s.takeAction src value reported).pins = s.pins
      ∧ (s.takeAction src value reported).ownId = s.ownId ∧ (s.takeAction src value reported).config = s.config
      ∧ (s.takeAction src value reported).committed = s.committed
      ∧ (s.takeAction src value reported).mbi.bus = s.mbi.bus
      ∧ (s.takeAction src value reported).mbi.line = s.mbi.line
      ∧ (s.takeAction src value reported).mbi.tx = s.mbi.tx ∧ (s.takeAction src value reported).mbi.tec = s.mbi.tec
      ∧ (s.takeAction src value reported).mbi.recCount = s.mbi.recCount
      ∧ (s.takeAction src value reported).mbi.rejectMuted = s.mbi.rejectMuted
      ∧ (s.takeAction src value reported).mbi.permanentSilence = s.mbi.permanentSilence
      ∧ (s.takeAction src value reported).mbi.goodCount = s.mbi.goodCount
      ∧ (s.takeAction src value reported).mbi.silenceTimer = s.mbi.silenceTimer
      ∧ (s.takeAction src value reported).mbi.slotDriven = s.mbi.slotDriven
      ∧ (s.takeAction src value reported).roster = s.roster
      ∧ (s.takeAction src value reported).closure.claimNumber = s.closure.claimNumber
      ∧ (s.takeAction src value reported).closure.holdOff = s.closure.holdOff
      ∧ (s.takeAction src value reported).conn.joined = s.conn.joined
      ∧ (s.takeAction src value reported).conn.statusTimer = s.conn.statusTimer
      ∧ (s.takeAction src value reported).meas = s.meas ∧ (s.takeAction src value reported).charge = s.charge
      ∧ (s.takeAction src value reported).det = s.det
      ∧ (s.takeAction src value reported).fault.portHolds = s.fault.portHolds
      ∧ (s.takeAction src value reported).power = s.power
      ∧ (s.takeAction src value reported).port.line = s.port.line
      ∧ (s.takeAction src value reported).port.response = s.port.response
      ∧ (s.takeAction src value reported).port.resetPending = s.port.resetPending
      ∧ (s.takeAction src value reported).port.enables = s.port.enables := by
  unfold State.takeAction
  (repeat' split) <;> simp

@[simp] theorem State.takeOnset_frame (src : Source) (value : Half) (reported : Scope) (s : State) :
    (s.takeOnset src value reported).pending = s.pending ∧ (s.takeOnset src value reported).choices = s.choices
      ∧ (s.takeOnset src value reported).pins = s.pins
      ∧ (s.takeOnset src value reported).ownId = s.ownId ∧ (s.takeOnset src value reported).config = s.config
      ∧ (s.takeOnset src value reported).committed = s.committed
      ∧ (s.takeOnset src value reported).mbi.bus = s.mbi.bus
      ∧ (s.takeOnset src value reported).mbi.line = s.mbi.line ∧ (s.takeOnset src value reported).mbi.tx = s.mbi.tx
      ∧ (s.takeOnset src value reported).mbi.tec = s.mbi.tec
      ∧ (s.takeOnset src value reported).mbi.recCount = s.mbi.recCount
      ∧ (s.takeOnset src value reported).mbi.rejectMuted = s.mbi.rejectMuted
      ∧ (s.takeOnset src value reported).mbi.permanentSilence = s.mbi.permanentSilence
      ∧ (s.takeOnset src value reported).mbi.goodCount = s.mbi.goodCount
      ∧ (s.takeOnset src value reported).mbi.silenceTimer = s.mbi.silenceTimer
      ∧ (s.takeOnset src value reported).mbi.slotDriven = s.mbi.slotDriven
      ∧ (s.takeOnset src value reported).roster = s.roster
      ∧ (s.takeOnset src value reported).closure.claimNumber = s.closure.claimNumber
      ∧ (s.takeOnset src value reported).closure.holdOff = s.closure.holdOff
      ∧ (s.takeOnset src value reported).conn.joined = s.conn.joined
      ∧ (s.takeOnset src value reported).conn.statusTimer = s.conn.statusTimer
      ∧ (s.takeOnset src value reported).meas = s.meas ∧ (s.takeOnset src value reported).charge = s.charge
      ∧ (s.takeOnset src value reported).det = s.det
      ∧ (s.takeOnset src value reported).fault.portHolds = s.fault.portHolds
      ∧ (s.takeOnset src value reported).power = s.power ∧ (s.takeOnset src value reported).port.line = s.port.line
      ∧ (s.takeOnset src value reported).port.response = s.port.response
      ∧ (s.takeOnset src value reported).port.resetPending = s.port.resetPending
      ∧ (s.takeOnset src value reported).port.enables = s.port.enables := by
  unfold State.takeOnset
  dsimp only
  (repeat' split) <;> simp

@[simp] theorem State.takeClearance_frame (src : Source) (s : State) :
    (s.takeClearance src).pending = s.pending ∧ (s.takeClearance src).choices = s.choices
      ∧ (s.takeClearance src).pins = s.pins
      ∧ (s.takeClearance src).ownId = s.ownId ∧ (s.takeClearance src).config = s.config
      ∧ (s.takeClearance src).committed = s.committed ∧ (s.takeClearance src).mbi.bus = s.mbi.bus
      ∧ (s.takeClearance src).mbi.line = s.mbi.line ∧ (s.takeClearance src).mbi.tx = s.mbi.tx
      ∧ (s.takeClearance src).mbi.withdrawal = s.mbi.withdrawal ∧ (s.takeClearance src).mbi.tec = s.mbi.tec
      ∧ (s.takeClearance src).mbi.recCount = s.mbi.recCount
      ∧ (s.takeClearance src).mbi.rejectMuted = s.mbi.rejectMuted
      ∧ (s.takeClearance src).mbi.permanentSilence = s.mbi.permanentSilence
      ∧ (s.takeClearance src).mbi.goodCount = s.mbi.goodCount
      ∧ (s.takeClearance src).mbi.silenceTimer = s.mbi.silenceTimer
      ∧ (s.takeClearance src).mbi.slotDriven = s.mbi.slotDriven ∧ (s.takeClearance src).roster = s.roster
      ∧ (s.takeClearance src).closure = s.closure ∧ (s.takeClearance src).conn.state = s.conn.state
      ∧ (s.takeClearance src).conn.joined = s.conn.joined
      ∧ (s.takeClearance src).conn.sleepPending = s.conn.sleepPending
      ∧ (s.takeClearance src).conn.settle = s.conn.settle ∧ (s.takeClearance src).conn.release = s.conn.release
      ∧ (s.takeClearance src).conn.statusTimer = s.conn.statusTimer
      ∧ (s.takeClearance src).conn.restarted = s.conn.restarted ∧ (s.takeClearance src).meas = s.meas
      ∧ (s.takeClearance src).charge = s.charge ∧ (s.takeClearance src).det = s.det
      ∧ (s.takeClearance src).fault.portHolds = s.fault.portHolds
      ∧ (s.takeClearance src).fault.closingHold = s.fault.closingHold
      ∧ (s.takeClearance src).fault.lockout = s.fault.lockout
      ∧ (s.takeClearance src).fault.tripCounter = s.fault.tripCounter
      ∧ (s.takeClearance src).fault.history = s.fault.history ∧ (s.takeClearance src).power = s.power
      ∧ (s.takeClearance src).port.line = s.port.line ∧ (s.takeClearance src).port.response = s.port.response
      ∧ (s.takeClearance src).port.resetPending = s.port.resetPending
      ∧ (s.takeClearance src).port.enables = s.port.enables := by
  unfold State.takeClearance
  dsimp only
  (repeat' split) <;> simp

@[simp] theorem State.postponed_frame (src : Source) (s : State) :
    (s.postponed src).pending = s.pending ∧ (s.postponed src).choices = s.choices ∧ (s.postponed src).pins = s.pins
      ∧ (s.postponed src).ownId = s.ownId ∧ (s.postponed src).config = s.config
      ∧ (s.postponed src).committed = s.committed ∧ (s.postponed src).mbi.bus = s.mbi.bus
      ∧ (s.postponed src).mbi.line = s.mbi.line ∧ (s.postponed src).mbi.tx = s.mbi.tx
      ∧ (s.postponed src).mbi.tec = s.mbi.tec ∧ (s.postponed src).mbi.recCount = s.mbi.recCount
      ∧ (s.postponed src).mbi.rejectMuted = s.mbi.rejectMuted
      ∧ (s.postponed src).mbi.permanentSilence = s.mbi.permanentSilence
      ∧ (s.postponed src).mbi.goodCount = s.mbi.goodCount ∧ (s.postponed src).mbi.silenceTimer = s.mbi.silenceTimer
      ∧ (s.postponed src).mbi.slotDriven = s.mbi.slotDriven ∧ (s.postponed src).roster = s.roster
      ∧ (s.postponed src).closure.claimNumber = s.closure.claimNumber
      ∧ (s.postponed src).closure.holdOff = s.closure.holdOff ∧ (s.postponed src).conn.joined = s.conn.joined
      ∧ (s.postponed src).conn.statusTimer = s.conn.statusTimer ∧ (s.postponed src).meas = s.meas
      ∧ (s.postponed src).charge = s.charge ∧ (s.postponed src).det = s.det
      ∧ (s.postponed src).fault.portHolds = s.fault.portHolds ∧ (s.postponed src).power = s.power
      ∧ (s.postponed src).port.line = s.port.line ∧ (s.postponed src).port.response = s.port.response
      ∧ (s.postponed src).port.resetPending = s.port.resetPending
      ∧ (s.postponed src).port.enables = s.port.enables := by
  unfold State.postponed
  dsimp only
  (repeat' split) <;> simp

@[simp] theorem State.followBusTrip_frame (s : State) :
    s.followBusTrip.pending = s.pending ∧ s.followBusTrip.choices = s.choices ∧ s.followBusTrip.pins = s.pins
      ∧ s.followBusTrip.ownId = s.ownId
      ∧ s.followBusTrip.config = s.config ∧ s.followBusTrip.committed = s.committed
      ∧ s.followBusTrip.mbi.bus = s.mbi.bus ∧ s.followBusTrip.mbi.line = s.mbi.line
      ∧ s.followBusTrip.mbi.tx = s.mbi.tx ∧ s.followBusTrip.mbi.tec = s.mbi.tec
      ∧ s.followBusTrip.mbi.recCount = s.mbi.recCount ∧ s.followBusTrip.mbi.rejectMuted = s.mbi.rejectMuted
      ∧ s.followBusTrip.mbi.permanentSilence = s.mbi.permanentSilence
      ∧ s.followBusTrip.mbi.goodCount = s.mbi.goodCount ∧ s.followBusTrip.mbi.silenceTimer = s.mbi.silenceTimer
      ∧ s.followBusTrip.mbi.slotDriven = s.mbi.slotDriven ∧ s.followBusTrip.roster = s.roster
      ∧ s.followBusTrip.closure.claimNumber = s.closure.claimNumber
      ∧ s.followBusTrip.closure.holdOff = s.closure.holdOff ∧ s.followBusTrip.conn.joined = s.conn.joined
      ∧ s.followBusTrip.conn.statusTimer = s.conn.statusTimer ∧ s.followBusTrip.meas = s.meas
      ∧ s.followBusTrip.charge = s.charge ∧ s.followBusTrip.det = s.det
      ∧ s.followBusTrip.fault.portHolds = s.fault.portHolds ∧ s.followBusTrip.power = s.power
      ∧ s.followBusTrip.port.line = s.port.line ∧ s.followBusTrip.port.response = s.port.response
      ∧ s.followBusTrip.port.resetPending = s.port.resetPending ∧ s.followBusTrip.port.enables = s.port.enables := by
  unfold State.followBusTrip
  dsimp only
  (repeat' split) <;> simp

@[simp] theorem State.enterSleep_frame (s : State) :
    s.enterSleep.pending = s.pending ∧ s.enterSleep.choices = s.choices ∧ s.enterSleep.pins = s.pins
      ∧ s.enterSleep.ownId = s.ownId
      ∧ s.enterSleep.config = s.config ∧ s.enterSleep.committed = s.committed
      ∧ s.enterSleep.mbi.permanentSilence = s.mbi.permanentSilence ∧ s.enterSleep.conn.joined = s.conn.joined
      ∧ s.enterSleep.charge = s.charge ∧ s.enterSleep.fault.portHolds = s.fault.portHolds
      ∧ s.enterSleep.fault.tripCounter = s.fault.tripCounter ∧ s.enterSleep.fault.history = s.fault.history
      ∧ s.enterSleep.power.checkFlag = s.power.checkFlag ∧ s.enterSleep.port.line = s.port.line
      ∧ s.enterSleep.port.response = s.port.response ∧ s.enterSleep.port.resetPending = s.port.resetPending := by
  simp [State.enterSleep, Mbi.offState, Conn.atRest]

@[simp] theorem State.claimMeetsSilence_frame (s : State) :
    s.claimMeetsSilence.pending = s.pending ∧ s.claimMeetsSilence.choices = s.choices
      ∧ s.claimMeetsSilence.pins = s.pins
      ∧ s.claimMeetsSilence.ownId = s.ownId ∧ s.claimMeetsSilence.config = s.config
      ∧ s.claimMeetsSilence.committed = s.committed ∧ s.claimMeetsSilence.mbi.bus = s.mbi.bus
      ∧ s.claimMeetsSilence.mbi.line = s.mbi.line ∧ s.claimMeetsSilence.mbi.tx = s.mbi.tx
      ∧ s.claimMeetsSilence.mbi.withdrawal = s.mbi.withdrawal ∧ s.claimMeetsSilence.mbi.tec = s.mbi.tec
      ∧ s.claimMeetsSilence.mbi.recCount = s.mbi.recCount ∧ s.claimMeetsSilence.mbi.rejectMuted = s.mbi.rejectMuted
      ∧ s.claimMeetsSilence.mbi.permanentSilence = s.mbi.permanentSilence
      ∧ s.claimMeetsSilence.mbi.goodCount = s.mbi.goodCount
      ∧ s.claimMeetsSilence.mbi.silenceTimer = s.mbi.silenceTimer
      ∧ s.claimMeetsSilence.mbi.slotDriven = s.mbi.slotDriven ∧ s.claimMeetsSilence.roster = s.roster
      ∧ s.claimMeetsSilence.closure.claimNumber = s.closure.claimNumber
      ∧ s.claimMeetsSilence.closure.quiet = s.closure.quiet ∧ s.claimMeetsSilence.conn.joined = s.conn.joined
      ∧ s.claimMeetsSilence.conn.sleepPending = s.conn.sleepPending
      ∧ s.claimMeetsSilence.conn.statusTimer = s.conn.statusTimer ∧ s.claimMeetsSilence.meas = s.meas
      ∧ s.claimMeetsSilence.charge = s.charge ∧ s.claimMeetsSilence.det = s.det
      ∧ s.claimMeetsSilence.fault = s.fault ∧ s.claimMeetsSilence.power = s.power
      ∧ s.claimMeetsSilence.port.line = s.port.line ∧ s.claimMeetsSilence.port.response = s.port.response
      ∧ s.claimMeetsSilence.port.resetPending = s.port.resetPending
      ∧ s.claimMeetsSilence.port.enables = s.port.enables := by
  unfold State.claimMeetsSilence
  (repeat' split) <;> simp

@[simp] theorem State.enterSilent_frame (race : Race) (s : State) :
    (s.enterSilent race).pending = s.pending ∧ (s.enterSilent race).choices = s.choices
      ∧ (s.enterSilent race).pins = s.pins
      ∧ (s.enterSilent race).ownId = s.ownId ∧ (s.enterSilent race).config = s.config
      ∧ (s.enterSilent race).committed = s.committed
      ∧ (s.enterSilent race).mbi.permanentSilence = s.mbi.permanentSilence
      ∧ (s.enterSilent race).conn.joined = s.conn.joined ∧ (s.enterSilent race).charge = s.charge
      ∧ (s.enterSilent race).fault.portHolds = s.fault.portHolds
      ∧ (s.enterSilent race).power.checkFlag = s.power.checkFlag ∧ (s.enterSilent race).port.line = s.port.line
      ∧ (s.enterSilent race).port.response = s.port.response
      ∧ (s.enterSilent race).port.resetPending = s.port.resetPending := by
  unfold State.enterSilent
  dsimp only
  (repeat' split) <;> simp

@[simp] theorem State.duplicateId_frame (s : State) :
    s.duplicateId.pending = s.pending ∧ s.duplicateId.choices = s.choices ∧ s.duplicateId.pins = s.pins
      ∧ s.duplicateId.ownId = s.ownId
      ∧ s.duplicateId.config = s.config ∧ s.duplicateId.committed = s.committed
      ∧ s.duplicateId.mbi.line = s.mbi.line ∧ s.duplicateId.mbi.tec = s.mbi.tec
      ∧ s.duplicateId.mbi.recCount = s.mbi.recCount ∧ s.duplicateId.mbi.rejectMuted = s.mbi.rejectMuted
      ∧ s.duplicateId.mbi.slotDriven = s.mbi.slotDriven ∧ s.duplicateId.roster = s.roster
      ∧ s.duplicateId.closure.claimNumber = s.closure.claimNumber ∧ s.duplicateId.conn.joined = s.conn.joined
      ∧ s.duplicateId.conn.statusTimer = s.conn.statusTimer ∧ s.duplicateId.meas = s.meas
      ∧ s.duplicateId.charge = s.charge ∧ s.duplicateId.det = s.det
      ∧ s.duplicateId.fault.portHolds = s.fault.portHolds ∧ s.duplicateId.power = s.power
      ∧ s.duplicateId.port.line = s.port.line ∧ s.duplicateId.port.response = s.port.response
      ∧ s.duplicateId.port.resetPending = s.port.resetPending ∧ s.duplicateId.port.enables = s.port.enables := by
  unfold State.duplicateId
  dsimp only
  (repeat' split) <;> simp

@[simp] theorem State.beginClaim_frame (s : State) :
    s.beginClaim.pending = s.pending ∧ s.beginClaim.choices = s.choices ∧ s.beginClaim.pins = s.pins
      ∧ s.beginClaim.ownId = s.ownId
      ∧ s.beginClaim.config = s.config ∧ s.beginClaim.committed = s.committed ∧ s.beginClaim.mbi.bus = s.mbi.bus
      ∧ s.beginClaim.mbi.line = s.mbi.line ∧ s.beginClaim.mbi.tx = s.mbi.tx
      ∧ s.beginClaim.mbi.withdrawal = s.mbi.withdrawal ∧ s.beginClaim.mbi.tec = s.mbi.tec
      ∧ s.beginClaim.mbi.recCount = s.mbi.recCount ∧ s.beginClaim.mbi.rejectMuted = s.mbi.rejectMuted
      ∧ s.beginClaim.mbi.permanentSilence = s.mbi.permanentSilence ∧ s.beginClaim.mbi.goodCount = s.mbi.goodCount
      ∧ s.beginClaim.mbi.silenceTimer = s.mbi.silenceTimer ∧ s.beginClaim.mbi.slotDriven = s.mbi.slotDriven
      ∧ s.beginClaim.roster = s.roster ∧ s.beginClaim.closure.lastOutcome = s.closure.lastOutcome
      ∧ s.beginClaim.closure.holdOff = s.closure.holdOff ∧ s.beginClaim.closure.quiet = s.closure.quiet
      ∧ s.beginClaim.conn.joined = s.conn.joined ∧ s.beginClaim.conn.sleepPending = s.conn.sleepPending
      ∧ s.beginClaim.conn.statusTimer = s.conn.statusTimer ∧ s.beginClaim.meas = s.meas
      ∧ s.beginClaim.charge = s.charge ∧ s.beginClaim.det = s.det ∧ s.beginClaim.fault = s.fault
      ∧ s.beginClaim.power = s.power ∧ s.beginClaim.port.line = s.port.line
      ∧ s.beginClaim.port.response = s.port.response ∧ s.beginClaim.port.resetPending = s.port.resetPending
      ∧ s.beginClaim.port.enables = s.port.enables := by
  simp [State.beginClaim]

@[simp] theorem State.eligibilityTest_frame (s : State) :
    s.eligibilityTest.pending = s.pending ∧ s.eligibilityTest.choices = s.choices ∧ s.eligibilityTest.pins = s.pins
      ∧ s.eligibilityTest.ownId = s.ownId ∧ s.eligibilityTest.config = s.config
      ∧ s.eligibilityTest.committed = s.committed ∧ s.eligibilityTest.mbi.bus = s.mbi.bus
      ∧ s.eligibilityTest.mbi.line = s.mbi.line ∧ s.eligibilityTest.mbi.tx = s.mbi.tx
      ∧ s.eligibilityTest.mbi.withdrawal = s.mbi.withdrawal ∧ s.eligibilityTest.mbi.tec = s.mbi.tec
      ∧ s.eligibilityTest.mbi.recCount = s.mbi.recCount ∧ s.eligibilityTest.mbi.rejectMuted = s.mbi.rejectMuted
      ∧ s.eligibilityTest.mbi.permanentSilence = s.mbi.permanentSilence
      ∧ s.eligibilityTest.mbi.goodCount = s.mbi.goodCount ∧ s.eligibilityTest.mbi.silenceTimer = s.mbi.silenceTimer
      ∧ s.eligibilityTest.mbi.slotDriven = s.mbi.slotDriven ∧ s.eligibilityTest.roster = s.roster
      ∧ s.eligibilityTest.closure.lastOutcome = s.closure.lastOutcome
      ∧ s.eligibilityTest.closure.holdOff = s.closure.holdOff ∧ s.eligibilityTest.closure.quiet = s.closure.quiet
      ∧ s.eligibilityTest.conn.joined = s.conn.joined ∧ s.eligibilityTest.conn.sleepPending = s.conn.sleepPending
      ∧ s.eligibilityTest.conn.statusTimer = s.conn.statusTimer ∧ s.eligibilityTest.meas = s.meas
      ∧ s.eligibilityTest.charge = s.charge ∧ s.eligibilityTest.det = s.det ∧ s.eligibilityTest.fault = s.fault
      ∧ s.eligibilityTest.power = s.power ∧ s.eligibilityTest.port.line = s.port.line
      ∧ s.eligibilityTest.port.response = s.port.response
      ∧ s.eligibilityTest.port.resetPending = s.port.resetPending
      ∧ s.eligibilityTest.port.enables = s.port.enables := by
  unfold State.eligibilityTest
  (repeat' split) <;> simp

@[simp] theorem State.retest_frame (s before : State) :
    (s.retest before).pending = s.pending ∧ (s.retest before).choices = s.choices ∧ (s.retest before).pins = s.pins
      ∧ (s.retest before).ownId = s.ownId ∧ (s.retest before).config = s.config
      ∧ (s.retest before).committed = s.committed ∧ (s.retest before).mbi.bus = s.mbi.bus
      ∧ (s.retest before).mbi.line = s.mbi.line ∧ (s.retest before).mbi.tx = s.mbi.tx
      ∧ (s.retest before).mbi.withdrawal = s.mbi.withdrawal ∧ (s.retest before).mbi.tec = s.mbi.tec
      ∧ (s.retest before).mbi.recCount = s.mbi.recCount ∧ (s.retest before).mbi.rejectMuted = s.mbi.rejectMuted
      ∧ (s.retest before).mbi.permanentSilence = s.mbi.permanentSilence
      ∧ (s.retest before).mbi.goodCount = s.mbi.goodCount ∧ (s.retest before).mbi.silenceTimer = s.mbi.silenceTimer
      ∧ (s.retest before).mbi.slotDriven = s.mbi.slotDriven ∧ (s.retest before).roster = s.roster
      ∧ (s.retest before).closure.lastOutcome = s.closure.lastOutcome
      ∧ (s.retest before).closure.holdOff = s.closure.holdOff ∧ (s.retest before).closure.quiet = s.closure.quiet
      ∧ (s.retest before).conn.joined = s.conn.joined ∧ (s.retest before).conn.sleepPending = s.conn.sleepPending
      ∧ (s.retest before).conn.statusTimer = s.conn.statusTimer ∧ (s.retest before).meas = s.meas
      ∧ (s.retest before).charge = s.charge ∧ (s.retest before).det = s.det ∧ (s.retest before).fault = s.fault
      ∧ (s.retest before).power = s.power ∧ (s.retest before).port.line = s.port.line
      ∧ (s.retest before).port.response = s.port.response
      ∧ (s.retest before).port.resetPending = s.port.resetPending
      ∧ (s.retest before).port.enables = s.port.enables := by
  unfold State.retest
  split <;> simp

@[simp] theorem State.judgeShort_frame (current : Nat) (s : State) :
    (s.judgeShort current).pending = s.pending ∧ (s.judgeShort current).choices = s.choices
      ∧ (s.judgeShort current).pins = s.pins
      ∧ (s.judgeShort current).ownId = s.ownId ∧ (s.judgeShort current).config = s.config
      ∧ (s.judgeShort current).committed = s.committed ∧ (s.judgeShort current).mbi.bus = s.mbi.bus
      ∧ (s.judgeShort current).mbi.line = s.mbi.line ∧ (s.judgeShort current).mbi.tx = s.mbi.tx
      ∧ (s.judgeShort current).mbi.tec = s.mbi.tec ∧ (s.judgeShort current).mbi.recCount = s.mbi.recCount
      ∧ (s.judgeShort current).mbi.rejectMuted = s.mbi.rejectMuted
      ∧ (s.judgeShort current).mbi.permanentSilence = s.mbi.permanentSilence
      ∧ (s.judgeShort current).mbi.goodCount = s.mbi.goodCount
      ∧ (s.judgeShort current).mbi.silenceTimer = s.mbi.silenceTimer
      ∧ (s.judgeShort current).mbi.slotDriven = s.mbi.slotDriven ∧ (s.judgeShort current).roster = s.roster
      ∧ (s.judgeShort current).closure.claimNumber = s.closure.claimNumber
      ∧ (s.judgeShort current).closure.holdOff = s.closure.holdOff
      ∧ (s.judgeShort current).conn.joined = s.conn.joined
      ∧ (s.judgeShort current).conn.statusTimer = s.conn.statusTimer ∧ (s.judgeShort current).meas = s.meas
      ∧ (s.judgeShort current).charge = s.charge ∧ (s.judgeShort current).det.runDsg = s.det.runDsg
      ∧ (s.judgeShort current).det.runChg = s.det.runChg ∧ (s.judgeShort current).det.tempTrip = s.det.tempTrip
      ∧ (s.judgeShort current).det.busOv = s.det.busOv ∧ (s.judgeShort current).det.ocDsg = s.det.ocDsg
      ∧ (s.judgeShort current).det.ocChg = s.det.ocChg ∧ (s.judgeShort current).det.modOv = s.det.modOv
      ∧ (s.judgeShort current).det.modUv = s.det.modUv ∧ (s.judgeShort current).det.shortArmed = s.det.shortArmed
      ∧ (s.judgeShort current).det.wakeCurrentArmed = s.det.wakeCurrentArmed
      ∧ (s.judgeShort current).det.wakeCurrentRun = s.det.wakeCurrentRun
      ∧ (s.judgeShort current).fault.portHolds = s.fault.portHolds ∧ (s.judgeShort current).power = s.power
      ∧ (s.judgeShort current).port.line = s.port.line ∧ (s.judgeShort current).port.response = s.port.response
      ∧ (s.judgeShort current).port.resetPending = s.port.resetPending
      ∧ (s.judgeShort current).port.enables = s.port.enables := by
  unfold State.judgeShort
  split <;> simp

@[simp] theorem State.startUp_frame (s : State) :
    s.startUp.pending = s.pending ∧ s.startUp.choices = s.choices ∧ s.startUp.pins = s.pins ∧ s.startUp.ownId = s.ownId
      ∧ s.startUp.config = s.config ∧ s.startUp.committed = s.committed ∧ s.startUp.mbi.tx = s.mbi.tx
      ∧ s.startUp.mbi.tec = s.mbi.tec ∧ s.startUp.mbi.recCount = s.mbi.recCount
      ∧ s.startUp.mbi.rejectMuted = s.mbi.rejectMuted ∧ s.startUp.mbi.permanentSilence = s.mbi.permanentSilence
      ∧ s.startUp.mbi.goodCount = s.mbi.goodCount ∧ s.startUp.mbi.silenceTimer = s.mbi.silenceTimer
      ∧ s.startUp.mbi.slotDriven = s.mbi.slotDriven ∧ s.startUp.roster = s.roster
      ∧ s.startUp.closure.claimNumber = s.closure.claimNumber ∧ s.startUp.conn.joined = s.conn.joined
      ∧ s.startUp.meas.sample = s.meas.sample ∧ s.startUp.charge = s.charge ∧ s.startUp.det.runDsg = s.det.runDsg
      ∧ s.startUp.det.runChg = s.det.runChg ∧ s.startUp.det.tempTrip = s.det.tempTrip
      ∧ s.startUp.det.busOv = s.det.busOv ∧ s.startUp.det.ocDsg = s.det.ocDsg ∧ s.startUp.det.ocChg = s.det.ocChg
      ∧ s.startUp.det.modOv = s.det.modOv ∧ s.startUp.det.modUv = s.det.modUv
      ∧ s.startUp.det.wakeCurrentArmed = s.det.wakeCurrentArmed
      ∧ s.startUp.det.wakeCurrentRun = s.det.wakeCurrentRun ∧ s.startUp.fault.portHolds = s.fault.portHolds
      ∧ s.startUp.power.phase = s.power.phase ∧ s.startUp.power.latch = s.power.latch
      ∧ s.startUp.power.wakeLineArmed = s.power.wakeLineArmed ∧ s.startUp.power.wakeLineRun = s.power.wakeLineRun
      ∧ s.startUp.power.pulseTimer = s.power.pulseTimer ∧ s.startUp.power.checkFailed = s.power.checkFailed
      ∧ s.startUp.power.checkFlag = s.power.checkFlag ∧ s.startUp.power.wakeCheck = s.power.wakeCheck
      ∧ s.startUp.port.line = s.port.line ∧ s.startUp.port.response = s.port.response
      ∧ s.startUp.port.resetPending = s.port.resetPending ∧ s.startUp.port.enables = s.port.enables := by
  unfold State.startUp
  dsimp only
  (repeat' split) <;> simp

@[simp] theorem State.claimTransmitted_frame (number : Byte) (withdrawal : Option Withdrawal) (s : State) :
    (s.claimTransmitted number withdrawal).pending = s.pending
      ∧ (s.claimTransmitted number withdrawal).choices = s.choices
      ∧ (s.claimTransmitted number withdrawal).pins = s.pins
      ∧ (s.claimTransmitted number withdrawal).ownId = s.ownId
      ∧ (s.claimTransmitted number withdrawal).config = s.config
      ∧ (s.claimTransmitted number withdrawal).committed = s.committed
      ∧ (s.claimTransmitted number withdrawal).mbi.bus = s.mbi.bus
      ∧ (s.claimTransmitted number withdrawal).mbi.line = s.mbi.line
      ∧ (s.claimTransmitted number withdrawal).mbi.tx = s.mbi.tx
      ∧ (s.claimTransmitted number withdrawal).mbi.withdrawal = s.mbi.withdrawal
      ∧ (s.claimTransmitted number withdrawal).mbi.tec = s.mbi.tec
      ∧ (s.claimTransmitted number withdrawal).mbi.recCount = s.mbi.recCount
      ∧ (s.claimTransmitted number withdrawal).mbi.rejectMuted = s.mbi.rejectMuted
      ∧ (s.claimTransmitted number withdrawal).mbi.permanentSilence = s.mbi.permanentSilence
      ∧ (s.claimTransmitted number withdrawal).mbi.goodCount = s.mbi.goodCount
      ∧ (s.claimTransmitted number withdrawal).mbi.silenceTimer = s.mbi.silenceTimer
      ∧ (s.claimTransmitted number withdrawal).mbi.slotDriven = s.mbi.slotDriven
      ∧ (s.claimTransmitted number withdrawal).roster = s.roster
      ∧ (s.claimTransmitted number withdrawal).closure.claimNumber = s.closure.claimNumber
      ∧ (s.claimTransmitted number withdrawal).closure.quiet = s.closure.quiet
      ∧ (s.claimTransmitted number withdrawal).conn.joined = s.conn.joined
      ∧ (s.claimTransmitted number withdrawal).conn.sleepPending = s.conn.sleepPending
      ∧ (s.claimTransmitted number withdrawal).conn.statusTimer = s.conn.statusTimer
      ∧ (s.claimTransmitted number withdrawal).meas = s.meas
      ∧ (s.claimTransmitted number withdrawal).charge = s.charge
      ∧ (s.claimTransmitted number withdrawal).det = s.det
      ∧ (s.claimTransmitted number withdrawal).fault.register = s.fault.register
      ∧ (s.claimTransmitted number withdrawal).fault.portHolds = s.fault.portHolds
      ∧ (s.claimTransmitted number withdrawal).fault.lockout = s.fault.lockout
      ∧ (s.claimTransmitted number withdrawal).fault.tripCounter = s.fault.tripCounter
      ∧ (s.claimTransmitted number withdrawal).fault.history = s.fault.history
      ∧ (s.claimTransmitted number withdrawal).power = s.power
      ∧ (s.claimTransmitted number withdrawal).port.line = s.port.line
      ∧ (s.claimTransmitted number withdrawal).port.response = s.port.response
      ∧ (s.claimTransmitted number withdrawal).port.resetPending = s.port.resetPending
      ∧ (s.claimTransmitted number withdrawal).port.enables = s.port.enables := by
  unfold State.claimTransmitted
  (repeat' split) <;> simp

@[simp] theorem State.transmitted_frame (f : Frame) (s : State) :
    (s.transmitted f).pending = s.pending ∧ (s.transmitted f).choices = s.choices ∧ (s.transmitted f).pins = s.pins
      ∧ (s.transmitted f).ownId = s.ownId ∧ (s.transmitted f).config = s.config
      ∧ (s.transmitted f).committed = s.committed ∧ (s.transmitted f).mbi.bus = s.mbi.bus
      ∧ (s.transmitted f).mbi.recCount = s.mbi.recCount ∧ (s.transmitted f).mbi.rejectMuted = s.mbi.rejectMuted
      ∧ (s.transmitted f).mbi.permanentSilence = s.mbi.permanentSilence
      ∧ (s.transmitted f).mbi.goodCount = s.mbi.goodCount ∧ (s.transmitted f).mbi.silenceTimer = s.mbi.silenceTimer
      ∧ (s.transmitted f).mbi.slotDriven = s.mbi.slotDriven ∧ (s.transmitted f).roster = s.roster
      ∧ (s.transmitted f).closure.claimNumber = s.closure.claimNumber
      ∧ (s.transmitted f).closure.quiet = s.closure.quiet ∧ (s.transmitted f).conn.joined = s.conn.joined
      ∧ (s.transmitted f).conn.sleepPending = s.conn.sleepPending
      ∧ (s.transmitted f).conn.statusTimer = s.conn.statusTimer ∧ (s.transmitted f).meas = s.meas
      ∧ (s.transmitted f).charge = s.charge ∧ (s.transmitted f).det = s.det
      ∧ (s.transmitted f).fault.register = s.fault.register ∧ (s.transmitted f).fault.portHolds = s.fault.portHolds
      ∧ (s.transmitted f).fault.lockout = s.fault.lockout
      ∧ (s.transmitted f).fault.tripCounter = s.fault.tripCounter
      ∧ (s.transmitted f).fault.history = s.fault.history ∧ (s.transmitted f).power = s.power
      ∧ (s.transmitted f).port.line = s.port.line ∧ (s.transmitted f).port.response = s.port.response
      ∧ (s.transmitted f).port.resetPending = s.port.resetPending
      ∧ (s.transmitted f).port.enables = s.port.enables := by
  unfold State.transmitted
  (repeat' split) <;> simp

@[simp] theorem State.countFailure_frame (k : FrameKind) (s : State) :
    (s.countFailure k).pending = s.pending ∧ (s.countFailure k).choices = s.choices ∧ (s.countFailure k).pins = s.pins
      ∧ (s.countFailure k).ownId = s.ownId ∧ (s.countFailure k).config = s.config
      ∧ (s.countFailure k).committed = s.committed ∧ (s.countFailure k).mbi.bus = s.mbi.bus
      ∧ (s.countFailure k).mbi.line = s.mbi.line ∧ (s.countFailure k).mbi.tx = s.mbi.tx
      ∧ (s.countFailure k).mbi.withdrawal = s.mbi.withdrawal ∧ (s.countFailure k).mbi.tec = s.mbi.tec
      ∧ (s.countFailure k).mbi.recCount = s.mbi.recCount ∧ (s.countFailure k).mbi.rejectMuted = s.mbi.rejectMuted
      ∧ (s.countFailure k).mbi.permanentSilence = s.mbi.permanentSilence
      ∧ (s.countFailure k).mbi.goodCount = s.mbi.goodCount
      ∧ (s.countFailure k).mbi.silenceTimer = s.mbi.silenceTimer
      ∧ (s.countFailure k).mbi.slotDriven = s.mbi.slotDriven ∧ (s.countFailure k).roster = s.roster
      ∧ (s.countFailure k).closure.claimNumber = s.closure.claimNumber
      ∧ (s.countFailure k).closure.quiet = s.closure.quiet ∧ (s.countFailure k).conn.joined = s.conn.joined
      ∧ (s.countFailure k).conn.sleepPending = s.conn.sleepPending
      ∧ (s.countFailure k).conn.statusTimer = s.conn.statusTimer ∧ (s.countFailure k).meas = s.meas
      ∧ (s.countFailure k).charge = s.charge ∧ (s.countFailure k).det = s.det ∧ (s.countFailure k).fault = s.fault
      ∧ (s.countFailure k).power = s.power ∧ (s.countFailure k).port.line = s.port.line
      ∧ (s.countFailure k).port.response = s.port.response
      ∧ (s.countFailure k).port.resetPending = s.port.resetPending
      ∧ (s.countFailure k).port.enables = s.port.enables := by
  unfold State.countFailure
  dsimp only
  (repeat' split) <;> simp

@[simp] theorem State.attemptFailed_frame (k : FrameKind) (race : Race) (s : State) :
    (s.attemptFailed k race).pending = s.pending ∧ (s.attemptFailed k race).choices = s.choices
      ∧ (s.attemptFailed k race).pins = s.pins
      ∧ (s.attemptFailed k race).ownId = s.ownId ∧ (s.attemptFailed k race).config = s.config
      ∧ (s.attemptFailed k race).committed = s.committed
      ∧ (s.attemptFailed k race).mbi.permanentSilence = s.mbi.permanentSilence
      ∧ (s.attemptFailed k race).conn.joined = s.conn.joined ∧ (s.attemptFailed k race).charge = s.charge
      ∧ (s.attemptFailed k race).fault.portHolds = s.fault.portHolds
      ∧ (s.attemptFailed k race).power.checkFlag = s.power.checkFlag
      ∧ (s.attemptFailed k race).port.line = s.port.line ∧ (s.attemptFailed k race).port.response = s.port.response
      ∧ (s.attemptFailed k race).port.resetPending = s.port.resetPending := by
  unfold State.attemptFailed
  dsimp only
  (repeat' split) <;> simp

@[simp] theorem State.receiving_frame (s : State) :
    s.receiving.pending = s.pending ∧ s.receiving.choices = s.choices ∧ s.receiving.pins = s.pins
      ∧ s.receiving.ownId = s.ownId
      ∧ s.receiving.config = s.config ∧ s.receiving.committed = s.committed ∧ s.receiving.mbi.bus = s.mbi.bus
      ∧ s.receiving.mbi.tec = s.mbi.tec ∧ s.receiving.mbi.recCount = s.mbi.recCount
      ∧ s.receiving.mbi.rejectMuted = s.mbi.rejectMuted ∧ s.receiving.mbi.permanentSilence = s.mbi.permanentSilence
      ∧ s.receiving.mbi.goodCount = s.mbi.goodCount ∧ s.receiving.roster = s.roster
      ∧ s.receiving.closure = s.closure ∧ s.receiving.conn = s.conn ∧ s.receiving.switches = s.switches
      ∧ s.receiving.meas = s.meas ∧ s.receiving.charge = s.charge ∧ s.receiving.det = s.det
      ∧ s.receiving.fault = s.fault ∧ s.receiving.power = s.power ∧ s.receiving.port = s.port := by
  simp [State.receiving]

@[simp] theorem State.findFaulty_frame (s : State) :
    s.findFaulty.pending = s.pending ∧ s.findFaulty.choices = s.choices ∧ s.findFaulty.pins = s.pins
      ∧ s.findFaulty.ownId = s.ownId
      ∧ s.findFaulty.config = s.config ∧ s.findFaulty.committed = s.committed ∧ s.findFaulty.mbi.bus = s.mbi.bus
      ∧ s.findFaulty.mbi.line = s.mbi.line ∧ s.findFaulty.mbi.tx = s.mbi.tx ∧ s.findFaulty.mbi.tec = s.mbi.tec
      ∧ s.findFaulty.mbi.permanentSilence = s.mbi.permanentSilence
      ∧ s.findFaulty.mbi.silenceTimer = s.mbi.silenceTimer ∧ s.findFaulty.roster = s.roster
      ∧ s.findFaulty.closure.claimNumber = s.closure.claimNumber ∧ s.findFaulty.closure.holdOff = s.closure.holdOff
      ∧ s.findFaulty.conn.joined = s.conn.joined ∧ s.findFaulty.conn.statusTimer = s.conn.statusTimer
      ∧ s.findFaulty.meas = s.meas ∧ s.findFaulty.charge = s.charge ∧ s.findFaulty.det = s.det
      ∧ s.findFaulty.fault.portHolds = s.fault.portHolds ∧ s.findFaulty.power = s.power
      ∧ s.findFaulty.port.line = s.port.line ∧ s.findFaulty.port.response = s.port.response
      ∧ s.findFaulty.port.resetPending = s.port.resetPending ∧ s.findFaulty.port.enables = s.port.enables := by
  unfold State.findFaulty
  dsimp only
  (repeat' split) <;> simp

@[simp] theorem State.acceptFrame_frame (src : StationId) (s : State) :
    (s.acceptFrame src).pending = s.pending ∧ (s.acceptFrame src).choices = s.choices
      ∧ (s.acceptFrame src).pins = s.pins
      ∧ (s.acceptFrame src).ownId = s.ownId ∧ (s.acceptFrame src).config = s.config
      ∧ (s.acceptFrame src).committed = s.committed ∧ (s.acceptFrame src).mbi.bus = s.mbi.bus
      ∧ (s.acceptFrame src).mbi.line = s.mbi.line ∧ (s.acceptFrame src).mbi.tx = s.mbi.tx
      ∧ (s.acceptFrame src).mbi.withdrawal = s.mbi.withdrawal ∧ (s.acceptFrame src).mbi.tec = s.mbi.tec
      ∧ (s.acceptFrame src).mbi.permanentSilence = s.mbi.permanentSilence
      ∧ (s.acceptFrame src).mbi.silenceTimer = s.mbi.silenceTimer
      ∧ (s.acceptFrame src).mbi.slotDriven = s.mbi.slotDriven ∧ (s.acceptFrame src).roster = s.roster
      ∧ (s.acceptFrame src).closure = s.closure ∧ (s.acceptFrame src).conn.state = s.conn.state
      ∧ (s.acceptFrame src).conn.joined = s.conn.joined
      ∧ (s.acceptFrame src).conn.sleepPending = s.conn.sleepPending
      ∧ (s.acceptFrame src).conn.settle = s.conn.settle ∧ (s.acceptFrame src).conn.release = s.conn.release
      ∧ (s.acceptFrame src).conn.statusTimer = s.conn.statusTimer
      ∧ (s.acceptFrame src).conn.restarted = s.conn.restarted ∧ (s.acceptFrame src).meas = s.meas
      ∧ (s.acceptFrame src).charge = s.charge ∧ (s.acceptFrame src).det = s.det
      ∧ (s.acceptFrame src).fault.portHolds = s.fault.portHolds
      ∧ (s.acceptFrame src).fault.closingHold = s.fault.closingHold
      ∧ (s.acceptFrame src).fault.lockout = s.fault.lockout
      ∧ (s.acceptFrame src).fault.tripCounter = s.fault.tripCounter
      ∧ (s.acceptFrame src).fault.history = s.fault.history ∧ (s.acceptFrame src).power = s.power
      ∧ (s.acceptFrame src).port.line = s.port.line ∧ (s.acceptFrame src).port.response = s.port.response
      ∧ (s.acceptFrame src).port.resetPending = s.port.resetPending
      ∧ (s.acceptFrame src).port.enables = s.port.enables := by
  unfold State.acceptFrame
  dsimp only
  (repeat' split) <;> simp

@[simp] theorem State.yieldClaim_frame (s : State) :
    s.yieldClaim.pending = s.pending ∧ s.yieldClaim.choices = s.choices ∧ s.yieldClaim.pins = s.pins
      ∧ s.yieldClaim.ownId = s.ownId
      ∧ s.yieldClaim.config = s.config ∧ s.yieldClaim.committed = s.committed ∧ s.yieldClaim.mbi.bus = s.mbi.bus
      ∧ s.yieldClaim.mbi.line = s.mbi.line ∧ s.yieldClaim.mbi.tx = s.mbi.tx ∧ s.yieldClaim.mbi.tec = s.mbi.tec
      ∧ s.yieldClaim.mbi.recCount = s.mbi.recCount ∧ s.yieldClaim.mbi.rejectMuted = s.mbi.rejectMuted
      ∧ s.yieldClaim.mbi.permanentSilence = s.mbi.permanentSilence ∧ s.yieldClaim.mbi.goodCount = s.mbi.goodCount
      ∧ s.yieldClaim.mbi.silenceTimer = s.mbi.silenceTimer ∧ s.yieldClaim.mbi.slotDriven = s.mbi.slotDriven
      ∧ s.yieldClaim.roster = s.roster ∧ s.yieldClaim.closure.claimNumber = s.closure.claimNumber
      ∧ s.yieldClaim.closure.holdOff = s.closure.holdOff ∧ s.yieldClaim.closure.quiet = s.closure.quiet
      ∧ s.yieldClaim.conn.joined = s.conn.joined ∧ s.yieldClaim.conn.sleepPending = s.conn.sleepPending
      ∧ s.yieldClaim.conn.statusTimer = s.conn.statusTimer ∧ s.yieldClaim.meas = s.meas
      ∧ s.yieldClaim.charge = s.charge ∧ s.yieldClaim.det = s.det ∧ s.yieldClaim.fault = s.fault
      ∧ s.yieldClaim.power = s.power ∧ s.yieldClaim.port.line = s.port.line
      ∧ s.yieldClaim.port.response = s.port.response ∧ s.yieldClaim.port.resetPending = s.port.resetPending
      ∧ s.yieldClaim.port.enables = s.port.enables := by
  unfold State.yieldClaim
  (repeat' split) <;> simp

@[simp] theorem State.takeAssent_frame (src : StationId) (awaited : List StationId) (timer : Nat) (s : State) :
    (s.takeAssent src awaited timer).pending = s.pending ∧ (s.takeAssent src awaited timer).choices = s.choices
      ∧ (s.takeAssent src awaited timer).pins = s.pins
      ∧ (s.takeAssent src awaited timer).ownId = s.ownId ∧ (s.takeAssent src awaited timer).config = s.config
      ∧ (s.takeAssent src awaited timer).committed = s.committed
      ∧ (s.takeAssent src awaited timer).mbi.bus = s.mbi.bus
      ∧ (s.takeAssent src awaited timer).mbi.line = s.mbi.line ∧ (s.takeAssent src awaited timer).mbi.tx = s.mbi.tx
      ∧ (s.takeAssent src awaited timer).mbi.withdrawal = s.mbi.withdrawal
      ∧ (s.takeAssent src awaited timer).mbi.tec = s.mbi.tec
      ∧ (s.takeAssent src awaited timer).mbi.recCount = s.mbi.recCount
      ∧ (s.takeAssent src awaited timer).mbi.rejectMuted = s.mbi.rejectMuted
      ∧ (s.takeAssent src awaited timer).mbi.permanentSilence = s.mbi.permanentSilence
      ∧ (s.takeAssent src awaited timer).mbi.goodCount = s.mbi.goodCount
      ∧ (s.takeAssent src awaited timer).mbi.silenceTimer = s.mbi.silenceTimer
      ∧ (s.takeAssent src awaited timer).mbi.slotDriven = s.mbi.slotDriven
      ∧ (s.takeAssent src awaited timer).roster = s.roster
      ∧ (s.takeAssent src awaited timer).closure.claimNumber = s.closure.claimNumber
      ∧ (s.takeAssent src awaited timer).closure.quiet = s.closure.quiet
      ∧ (s.takeAssent src awaited timer).conn.joined = s.conn.joined
      ∧ (s.takeAssent src awaited timer).conn.sleepPending = s.conn.sleepPending
      ∧ (s.takeAssent src awaited timer).conn.statusTimer = s.conn.statusTimer
      ∧ (s.takeAssent src awaited timer).meas = s.meas ∧ (s.takeAssent src awaited timer).charge = s.charge
      ∧ (s.takeAssent src awaited timer).det = s.det
      ∧ (s.takeAssent src awaited timer).fault.register = s.fault.register
      ∧ (s.takeAssent src awaited timer).fault.portHolds = s.fault.portHolds
      ∧ (s.takeAssent src awaited timer).fault.lockout = s.fault.lockout
      ∧ (s.takeAssent src awaited timer).fault.tripCounter = s.fault.tripCounter
      ∧ (s.takeAssent src awaited timer).fault.history = s.fault.history
      ∧ (s.takeAssent src awaited timer).power = s.power ∧ (s.takeAssent src awaited timer).port.line = s.port.line
      ∧ (s.takeAssent src awaited timer).port.response = s.port.response
      ∧ (s.takeAssent src awaited timer).port.resetPending = s.port.resetPending
      ∧ (s.takeAssent src awaited timer).port.enables = s.port.enables := by
  unfold State.takeAssent
  dsimp only
  (repeat' split) <;> simp

@[simp] theorem State.leaveSilent_frame (s : State) :
    s.leaveSilent.pending = s.pending ∧ s.leaveSilent.choices = s.choices ∧ s.leaveSilent.pins = s.pins
      ∧ s.leaveSilent.ownId = s.ownId
      ∧ s.leaveSilent.config = s.config ∧ s.leaveSilent.committed = s.committed
      ∧ s.leaveSilent.mbi.line = s.mbi.line ∧ s.leaveSilent.mbi.tx = s.mbi.tx
      ∧ s.leaveSilent.mbi.withdrawal = s.mbi.withdrawal ∧ s.leaveSilent.mbi.recCount = s.mbi.recCount
      ∧ s.leaveSilent.mbi.rejectMuted = s.mbi.rejectMuted
      ∧ s.leaveSilent.mbi.permanentSilence = s.mbi.permanentSilence
      ∧ s.leaveSilent.mbi.slotDriven = s.mbi.slotDriven ∧ s.leaveSilent.roster = s.roster
      ∧ s.leaveSilent.closure = s.closure ∧ s.leaveSilent.conn.state = s.conn.state
      ∧ s.leaveSilent.conn.joined = s.conn.joined ∧ s.leaveSilent.conn.sleepPending = s.conn.sleepPending
      ∧ s.leaveSilent.conn.settle = s.conn.settle ∧ s.leaveSilent.conn.release = s.conn.release
      ∧ s.leaveSilent.conn.statusTimer = s.conn.statusTimer ∧ s.leaveSilent.conn.restarted = s.conn.restarted
      ∧ s.leaveSilent.meas = s.meas ∧ s.leaveSilent.charge = s.charge ∧ s.leaveSilent.det = s.det
      ∧ s.leaveSilent.fault.portHolds = s.fault.portHolds ∧ s.leaveSilent.fault.closingHold = s.fault.closingHold
      ∧ s.leaveSilent.fault.lockout = s.fault.lockout ∧ s.leaveSilent.fault.tripCounter = s.fault.tripCounter
      ∧ s.leaveSilent.fault.history = s.fault.history ∧ s.leaveSilent.power = s.power
      ∧ s.leaveSilent.port.line = s.port.line ∧ s.leaveSilent.port.response = s.port.response
      ∧ s.leaveSilent.port.resetPending = s.port.resetPending ∧ s.leaveSilent.port.enables = s.port.enables := by
  simp [State.leaveSilent]

@[simp] theorem State.finishClosing_frame (s : State) :
    s.finishClosing.pending = s.pending ∧ s.finishClosing.choices = s.choices ∧ s.finishClosing.pins = s.pins
      ∧ s.finishClosing.ownId = s.ownId
      ∧ s.finishClosing.config = s.config ∧ s.finishClosing.committed = s.committed
      ∧ s.finishClosing.mbi.bus = s.mbi.bus ∧ s.finishClosing.mbi.line = s.mbi.line
      ∧ s.finishClosing.mbi.tx = s.mbi.tx ∧ s.finishClosing.mbi.withdrawal = s.mbi.withdrawal
      ∧ s.finishClosing.mbi.tec = s.mbi.tec ∧ s.finishClosing.mbi.recCount = s.mbi.recCount
      ∧ s.finishClosing.mbi.rejectMuted = s.mbi.rejectMuted
      ∧ s.finishClosing.mbi.permanentSilence = s.mbi.permanentSilence
      ∧ s.finishClosing.mbi.goodCount = s.mbi.goodCount ∧ s.finishClosing.mbi.silenceTimer = s.mbi.silenceTimer
      ∧ s.finishClosing.mbi.slotDriven = s.mbi.slotDriven ∧ s.finishClosing.roster = s.roster
      ∧ s.finishClosing.closure.claimNumber = s.closure.claimNumber
      ∧ s.finishClosing.closure.claim = s.closure.claim
      ∧ s.finishClosing.closure.lastOutcome = s.closure.lastOutcome
      ∧ s.finishClosing.closure.holdOff = s.closure.holdOff ∧ s.finishClosing.closure.quiet = s.closure.quiet
      ∧ s.finishClosing.conn.joined = s.conn.joined ∧ s.finishClosing.conn.sleepPending = s.conn.sleepPending
      ∧ s.finishClosing.conn.statusTimer = s.conn.statusTimer ∧ s.finishClosing.meas = s.meas
      ∧ s.finishClosing.charge = s.charge ∧ s.finishClosing.det = s.det ∧ s.finishClosing.fault = s.fault
      ∧ s.finishClosing.power = s.power ∧ s.finishClosing.port.line = s.port.line
      ∧ s.finishClosing.port.response = s.port.response ∧ s.finishClosing.port.resetPending = s.port.resetPending
      ∧ s.finishClosing.port.enables = s.port.enables := by
  simp [State.finishClosing]

@[simp] theorem State.recalibrate_frame (amount : Nat) (s : State) :
    (s.recalibrate amount).pending = s.pending ∧ (s.recalibrate amount).choices = s.choices
      ∧ (s.recalibrate amount).pins = s.pins
      ∧ (s.recalibrate amount).ownId = s.ownId ∧ (s.recalibrate amount).config = s.config
      ∧ (s.recalibrate amount).committed = s.committed ∧ (s.recalibrate amount).mbi.bus = s.mbi.bus
      ∧ (s.recalibrate amount).mbi.line = s.mbi.line ∧ (s.recalibrate amount).mbi.tx = s.mbi.tx
      ∧ (s.recalibrate amount).mbi.withdrawal = s.mbi.withdrawal ∧ (s.recalibrate amount).mbi.tec = s.mbi.tec
      ∧ (s.recalibrate amount).mbi.recCount = s.mbi.recCount
      ∧ (s.recalibrate amount).mbi.rejectMuted = s.mbi.rejectMuted
      ∧ (s.recalibrate amount).mbi.permanentSilence = s.mbi.permanentSilence
      ∧ (s.recalibrate amount).mbi.goodCount = s.mbi.goodCount
      ∧ (s.recalibrate amount).mbi.silenceTimer = s.mbi.silenceTimer
      ∧ (s.recalibrate amount).mbi.slotDriven = s.mbi.slotDriven ∧ (s.recalibrate amount).roster = s.roster
      ∧ (s.recalibrate amount).closure = s.closure ∧ (s.recalibrate amount).conn = s.conn
      ∧ (s.recalibrate amount).switches = s.switches ∧ (s.recalibrate amount).meas = s.meas
      ∧ (s.recalibrate amount).det = s.det ∧ (s.recalibrate amount).fault = s.fault
      ∧ (s.recalibrate amount).power = s.power ∧ (s.recalibrate amount).port.line = s.port.line
      ∧ (s.recalibrate amount).port.response = s.port.response
      ∧ (s.recalibrate amount).port.resetPending = s.port.resetPending
      ∧ (s.recalibrate amount).port.enables = s.port.enables := by
  unfold State.recalibrate
  dsimp only
  (repeat' split) <;> simp

@[simp] theorem State.integrate_frame (x : Sample) (s : State) :
    (s.integrate x).pending = s.pending ∧ (s.integrate x).choices = s.choices ∧ (s.integrate x).pins = s.pins
      ∧ (s.integrate x).ownId = s.ownId
      ∧ (s.integrate x).config = s.config ∧ (s.integrate x).committed = s.committed
      ∧ (s.integrate x).mbi.bus = s.mbi.bus ∧ (s.integrate x).mbi.line = s.mbi.line
      ∧ (s.integrate x).mbi.tx = s.mbi.tx ∧ (s.integrate x).mbi.withdrawal = s.mbi.withdrawal
      ∧ (s.integrate x).mbi.tec = s.mbi.tec ∧ (s.integrate x).mbi.recCount = s.mbi.recCount
      ∧ (s.integrate x).mbi.rejectMuted = s.mbi.rejectMuted
      ∧ (s.integrate x).mbi.permanentSilence = s.mbi.permanentSilence
      ∧ (s.integrate x).mbi.goodCount = s.mbi.goodCount ∧ (s.integrate x).mbi.silenceTimer = s.mbi.silenceTimer
      ∧ (s.integrate x).mbi.slotDriven = s.mbi.slotDriven ∧ (s.integrate x).roster = s.roster
      ∧ (s.integrate x).closure = s.closure ∧ (s.integrate x).conn = s.conn ∧ (s.integrate x).switches = s.switches
      ∧ (s.integrate x).meas = s.meas ∧ (s.integrate x).det = s.det ∧ (s.integrate x).fault = s.fault
      ∧ (s.integrate x).power = s.power ∧ (s.integrate x).port.line = s.port.line
      ∧ (s.integrate x).port.response = s.port.response ∧ (s.integrate x).port.resetPending = s.port.resetPending
      ∧ (s.integrate x).port.enables = s.port.enables := by
  unfold State.integrate
  dsimp only
  (repeat' split) <;> simp

@[simp] theorem State.takeClearances_frame (l : List Source) (s : State) :
    (s.takeClearances l).pending = s.pending ∧ (s.takeClearances l).choices = s.choices
      ∧ (s.takeClearances l).pins = s.pins
      ∧ (s.takeClearances l).ownId = s.ownId ∧ (s.takeClearances l).config = s.config
      ∧ (s.takeClearances l).committed = s.committed ∧ (s.takeClearances l).mbi.bus = s.mbi.bus
      ∧ (s.takeClearances l).mbi.line = s.mbi.line ∧ (s.takeClearances l).mbi.tx = s.mbi.tx
      ∧ (s.takeClearances l).mbi.withdrawal = s.mbi.withdrawal ∧ (s.takeClearances l).mbi.tec = s.mbi.tec
      ∧ (s.takeClearances l).mbi.recCount = s.mbi.recCount
      ∧ (s.takeClearances l).mbi.rejectMuted = s.mbi.rejectMuted
      ∧ (s.takeClearances l).mbi.permanentSilence = s.mbi.permanentSilence
      ∧ (s.takeClearances l).mbi.goodCount = s.mbi.goodCount
      ∧ (s.takeClearances l).mbi.silenceTimer = s.mbi.silenceTimer
      ∧ (s.takeClearances l).mbi.slotDriven = s.mbi.slotDriven ∧ (s.takeClearances l).roster = s.roster
      ∧ (s.takeClearances l).closure = s.closure ∧ (s.takeClearances l).conn.state = s.conn.state
      ∧ (s.takeClearances l).conn.joined = s.conn.joined
      ∧ (s.takeClearances l).conn.sleepPending = s.conn.sleepPending
      ∧ (s.takeClearances l).conn.settle = s.conn.settle ∧ (s.takeClearances l).conn.release = s.conn.release
      ∧ (s.takeClearances l).conn.statusTimer = s.conn.statusTimer
      ∧ (s.takeClearances l).conn.restarted = s.conn.restarted ∧ (s.takeClearances l).meas = s.meas
      ∧ (s.takeClearances l).charge = s.charge ∧ (s.takeClearances l).det = s.det
      ∧ (s.takeClearances l).fault.portHolds = s.fault.portHolds
      ∧ (s.takeClearances l).fault.closingHold = s.fault.closingHold
      ∧ (s.takeClearances l).fault.lockout = s.fault.lockout
      ∧ (s.takeClearances l).fault.tripCounter = s.fault.tripCounter
      ∧ (s.takeClearances l).fault.history = s.fault.history ∧ (s.takeClearances l).power = s.power
      ∧ (s.takeClearances l).port.line = s.port.line ∧ (s.takeClearances l).port.response = s.port.response
      ∧ (s.takeClearances l).port.resetPending = s.port.resetPending
      ∧ (s.takeClearances l).port.enables = s.port.enables := by
  induction l generalizing s with
  | nil => simp [State.takeClearances]
  | cons src rest ih => simp [State.takeClearances, ih]

@[simp] theorem State.takeOnsets_frame (x : Sample) (l : List Source) (s : State) :
    (s.takeOnsets x l).pending = s.pending ∧ (s.takeOnsets x l).choices = s.choices ∧ (s.takeOnsets x l).pins = s.pins
      ∧ (s.takeOnsets x l).ownId = s.ownId ∧ (s.takeOnsets x l).config = s.config
      ∧ (s.takeOnsets x l).committed = s.committed ∧ (s.takeOnsets x l).mbi.bus = s.mbi.bus
      ∧ (s.takeOnsets x l).mbi.line = s.mbi.line ∧ (s.takeOnsets x l).mbi.tx = s.mbi.tx
      ∧ (s.takeOnsets x l).mbi.tec = s.mbi.tec ∧ (s.takeOnsets x l).mbi.recCount = s.mbi.recCount
      ∧ (s.takeOnsets x l).mbi.rejectMuted = s.mbi.rejectMuted
      ∧ (s.takeOnsets x l).mbi.permanentSilence = s.mbi.permanentSilence
      ∧ (s.takeOnsets x l).mbi.goodCount = s.mbi.goodCount
      ∧ (s.takeOnsets x l).mbi.silenceTimer = s.mbi.silenceTimer
      ∧ (s.takeOnsets x l).mbi.slotDriven = s.mbi.slotDriven ∧ (s.takeOnsets x l).roster = s.roster
      ∧ (s.takeOnsets x l).closure.claimNumber = s.closure.claimNumber
      ∧ (s.takeOnsets x l).closure.holdOff = s.closure.holdOff ∧ (s.takeOnsets x l).conn.joined = s.conn.joined
      ∧ (s.takeOnsets x l).conn.statusTimer = s.conn.statusTimer ∧ (s.takeOnsets x l).meas = s.meas
      ∧ (s.takeOnsets x l).charge = s.charge ∧ (s.takeOnsets x l).det = s.det
      ∧ (s.takeOnsets x l).fault.portHolds = s.fault.portHolds ∧ (s.takeOnsets x l).power = s.power
      ∧ (s.takeOnsets x l).port.line = s.port.line ∧ (s.takeOnsets x l).port.response = s.port.response
      ∧ (s.takeOnsets x l).port.resetPending = s.port.resetPending
      ∧ (s.takeOnsets x l).port.enables = s.port.enables := by
  induction l generalizing s with
  | nil => simp [State.takeOnsets]
  | cons src rest ih => simp [State.takeOnsets, ih]

@[simp] theorem State.judgeSample_frame (x : Sample) (s : State) :
    (s.judgeSample x).pending = s.pending ∧ (s.judgeSample x).choices = s.choices ∧ (s.judgeSample x).pins = s.pins
      ∧ (s.judgeSample x).ownId = s.ownId ∧ (s.judgeSample x).config = s.config
      ∧ (s.judgeSample x).committed = s.committed ∧ (s.judgeSample x).mbi.bus = s.mbi.bus
      ∧ (s.judgeSample x).mbi.line = s.mbi.line ∧ (s.judgeSample x).mbi.tx = s.mbi.tx
      ∧ (s.judgeSample x).mbi.tec = s.mbi.tec ∧ (s.judgeSample x).mbi.recCount = s.mbi.recCount
      ∧ (s.judgeSample x).mbi.rejectMuted = s.mbi.rejectMuted
      ∧ (s.judgeSample x).mbi.permanentSilence = s.mbi.permanentSilence
      ∧ (s.judgeSample x).mbi.goodCount = s.mbi.goodCount ∧ (s.judgeSample x).mbi.silenceTimer = s.mbi.silenceTimer
      ∧ (s.judgeSample x).mbi.slotDriven = s.mbi.slotDriven ∧ (s.judgeSample x).roster = s.roster
      ∧ (s.judgeSample x).closure.claimNumber = s.closure.claimNumber
      ∧ (s.judgeSample x).closure.holdOff = s.closure.holdOff ∧ (s.judgeSample x).conn.joined = s.conn.joined
      ∧ (s.judgeSample x).conn.statusTimer = s.conn.statusTimer ∧ (s.judgeSample x).meas = s.meas
      ∧ (s.judgeSample x).charge = s.charge ∧ (s.judgeSample x).det.short = s.det.short
      ∧ (s.judgeSample x).det.shortArmed = s.det.shortArmed
      ∧ (s.judgeSample x).det.wakeCurrentArmed = s.det.wakeCurrentArmed
      ∧ (s.judgeSample x).det.wakeCurrentRun = s.det.wakeCurrentRun
      ∧ (s.judgeSample x).fault.portHolds = s.fault.portHolds ∧ (s.judgeSample x).power = s.power
      ∧ (s.judgeSample x).port.line = s.port.line ∧ (s.judgeSample x).port.response = s.port.response
      ∧ (s.judgeSample x).port.resetPending = s.port.resetPending
      ∧ (s.judgeSample x).port.enables = s.port.enables := by
  unfold State.judgeSample
  split <;> simp [Detectors.judge]

@[simp] theorem State.endWake_frame (s : State) :
    s.endWake.pending = s.pending ∧ s.endWake.choices = s.choices ∧ s.endWake.pins = s.pins ∧ s.endWake.ownId = s.ownId
      ∧ s.endWake.config = s.config ∧ s.endWake.committed = s.committed ∧ s.endWake.mbi.tx = s.mbi.tx
      ∧ s.endWake.mbi.withdrawal = s.mbi.withdrawal ∧ s.endWake.mbi.tec = s.mbi.tec
      ∧ s.endWake.mbi.recCount = s.mbi.recCount ∧ s.endWake.mbi.rejectMuted = s.mbi.rejectMuted
      ∧ s.endWake.mbi.permanentSilence = s.mbi.permanentSilence ∧ s.endWake.mbi.goodCount = s.mbi.goodCount
      ∧ s.endWake.mbi.silenceTimer = s.mbi.silenceTimer ∧ s.endWake.mbi.slotDriven = s.mbi.slotDriven
      ∧ s.endWake.roster = s.roster ∧ s.endWake.closure.record = s.closure.record
      ∧ s.endWake.closure.claimNumber = s.closure.claimNumber ∧ s.endWake.closure.claim = s.closure.claim
      ∧ s.endWake.closure.lastOutcome = s.closure.lastOutcome ∧ s.endWake.closure.quiet = s.closure.quiet
      ∧ s.endWake.conn.state = s.conn.state ∧ s.endWake.conn.path = s.conn.path
      ∧ s.endWake.conn.joined = s.conn.joined ∧ s.endWake.conn.sleepPending = s.conn.sleepPending
      ∧ s.endWake.conn.settle = s.conn.settle ∧ s.endWake.conn.release = s.conn.release
      ∧ s.endWake.switches = s.switches ∧ s.endWake.meas = s.meas ∧ s.endWake.charge = s.charge
      ∧ s.endWake.det = s.det ∧ s.endWake.fault = s.fault ∧ s.endWake.power.phase = s.power.phase
      ∧ s.endWake.power.latch = s.power.latch ∧ s.endWake.power.wakeLineArmed = s.power.wakeLineArmed
      ∧ s.endWake.power.wakeLineRun = s.power.wakeLineRun ∧ s.endWake.power.pulseTimer = s.power.pulseTimer
      ∧ s.endWake.power.check = s.power.check ∧ s.endWake.power.checkTimer = s.power.checkTimer
      ∧ s.endWake.power.checkResult = s.power.checkResult ∧ s.endWake.power.checkFailed = s.power.checkFailed
      ∧ s.endWake.power.checkFlag = s.power.checkFlag ∧ s.endWake.port = s.port := by
  simp [State.endWake]

@[simp] theorem State.endCheck_frame (failed : CheckItems) (s : State) :
    (s.endCheck failed).pending = s.pending ∧ (s.endCheck failed).choices = s.choices
      ∧ (s.endCheck failed).pins = s.pins
      ∧ (s.endCheck failed).ownId = s.ownId ∧ (s.endCheck failed).config = s.config
      ∧ (s.endCheck failed).committed = s.committed ∧ (s.endCheck failed).mbi.bus = s.mbi.bus
      ∧ (s.endCheck failed).mbi.line = s.mbi.line ∧ (s.endCheck failed).mbi.tx = s.mbi.tx
      ∧ (s.endCheck failed).mbi.withdrawal = s.mbi.withdrawal ∧ (s.endCheck failed).mbi.tec = s.mbi.tec
      ∧ (s.endCheck failed).mbi.recCount = s.mbi.recCount ∧ (s.endCheck failed).mbi.rejectMuted = s.mbi.rejectMuted
      ∧ (s.endCheck failed).mbi.permanentSilence = s.mbi.permanentSilence
      ∧ (s.endCheck failed).mbi.goodCount = s.mbi.goodCount
      ∧ (s.endCheck failed).mbi.silenceTimer = s.mbi.silenceTimer
      ∧ (s.endCheck failed).mbi.slotDriven = s.mbi.slotDriven ∧ (s.endCheck failed).roster = s.roster
      ∧ (s.endCheck failed).closure = s.closure ∧ (s.endCheck failed).conn = s.conn
      ∧ (s.endCheck failed).switches = s.switches ∧ (s.endCheck failed).meas.sample = s.meas.sample
      ∧ (s.endCheck failed).charge = s.charge ∧ (s.endCheck failed).det = s.det
      ∧ (s.endCheck failed).fault = s.fault ∧ (s.endCheck failed).power.phase = s.power.phase
      ∧ (s.endCheck failed).power.latch = s.power.latch
      ∧ (s.endCheck failed).power.wakeLineArmed = s.power.wakeLineArmed
      ∧ (s.endCheck failed).power.wakeLineRun = s.power.wakeLineRun
      ∧ (s.endCheck failed).power.pulseTimer = s.power.pulseTimer
      ∧ (s.endCheck failed).power.wakeCheck = s.power.wakeCheck ∧ (s.endCheck failed).port.line = s.port.line
      ∧ (s.endCheck failed).port.response = s.port.response
      ∧ (s.endCheck failed).port.resetPending = s.port.resetPending
      ∧ (s.endCheck failed).port.enables = s.port.enables := by
  unfold State.endCheck
  dsimp only
  (repeat' split) <;> simp

@[simp] theorem State.wakeMainDomain_frame (s : State) :
    s.wakeMainDomain.pending = s.pending ∧ s.wakeMainDomain.choices = s.choices ∧ s.wakeMainDomain.pins = s.pins
      ∧ s.wakeMainDomain.ownId = s.ownId
      ∧ s.wakeMainDomain.config = s.config ∧ s.wakeMainDomain.committed = s.committed ∧ s.wakeMainDomain.mbi = s.mbi
      ∧ s.wakeMainDomain.roster = s.roster ∧ s.wakeMainDomain.closure = s.closure
      ∧ s.wakeMainDomain.conn.joined = s.conn.joined ∧ s.wakeMainDomain.meas.sample = s.meas.sample
      ∧ s.wakeMainDomain.charge = s.charge ∧ s.wakeMainDomain.fault = s.fault
      ∧ s.wakeMainDomain.power.latch = s.power.latch ∧ s.wakeMainDomain.power.checkFailed = s.power.checkFailed
      ∧ s.wakeMainDomain.power.checkFlag = s.power.checkFlag ∧ s.wakeMainDomain.port.line = s.port.line
      ∧ s.wakeMainDomain.port.response = s.port.response
      ∧ s.wakeMainDomain.port.resetPending = s.port.resetPending := by
  simp [State.wakeMainDomain, Conn.atRest]

@[simp] theorem State.halt_frame (service : Bool) (s : State) :
    (s.halt service).pending = s.pending ∧ (s.halt service).choices = s.choices ∧ (s.halt service).pins = s.pins
      ∧ (s.halt service).ownId = s.ownId
      ∧ (s.halt service).config = s.config ∧ (s.halt service).committed = s.committed
      ∧ (s.halt service).charge = s.charge ∧ (s.halt service).fault.tripCounter = s.fault.tripCounter
      ∧ (s.halt service).fault.history = s.fault.history ∧ (s.halt service).power.checkFlag = s.power.checkFlag := by
  simp [State.halt]

@[simp] theorem State.startPinReset_frame (s : State) :
    s.startPinReset.pending = s.pending ∧ s.startPinReset.choices = s.choices ∧ s.startPinReset.pins = s.pins
      ∧ s.startPinReset.ownId = s.ownId
      ∧ s.startPinReset.config = s.config ∧ s.startPinReset.committed = s.committed
      ∧ s.startPinReset.charge = s.charge ∧ s.startPinReset.fault.tripCounter = s.fault.tripCounter
      ∧ s.startPinReset.fault.history = s.fault.history ∧ s.startPinReset.power.checkFlag = s.power.checkFlag := by
  unfold State.startPinReset
  split <;> simp

@[simp] theorem State.takeStanding_frame (src : Source) (value : Half) (s : State) :
    (s.takeStanding src value).pending = s.pending ∧ (s.takeStanding src value).choices = s.choices
      ∧ (s.takeStanding src value).pins = s.pins
      ∧ (s.takeStanding src value).ownId = s.ownId ∧ (s.takeStanding src value).config = s.config
      ∧ (s.takeStanding src value).committed = s.committed ∧ (s.takeStanding src value).mbi.bus = s.mbi.bus
      ∧ (s.takeStanding src value).mbi.line = s.mbi.line ∧ (s.takeStanding src value).mbi.tx = s.mbi.tx
      ∧ (s.takeStanding src value).mbi.tec = s.mbi.tec ∧ (s.takeStanding src value).mbi.recCount = s.mbi.recCount
      ∧ (s.takeStanding src value).mbi.rejectMuted = s.mbi.rejectMuted
      ∧ (s.takeStanding src value).mbi.permanentSilence = s.mbi.permanentSilence
      ∧ (s.takeStanding src value).mbi.goodCount = s.mbi.goodCount
      ∧ (s.takeStanding src value).mbi.silenceTimer = s.mbi.silenceTimer
      ∧ (s.takeStanding src value).mbi.slotDriven = s.mbi.slotDriven ∧ (s.takeStanding src value).roster = s.roster
      ∧ (s.takeStanding src value).closure.claimNumber = s.closure.claimNumber
      ∧ (s.takeStanding src value).closure.holdOff = s.closure.holdOff
      ∧ (s.takeStanding src value).conn.joined = s.conn.joined
      ∧ (s.takeStanding src value).conn.statusTimer = s.conn.statusTimer ∧ (s.takeStanding src value).meas = s.meas
      ∧ (s.takeStanding src value).charge = s.charge ∧ (s.takeStanding src value).det = s.det
      ∧ (s.takeStanding src value).fault.portHolds = s.fault.portHolds ∧ (s.takeStanding src value).power = s.power
      ∧ (s.takeStanding src value).port.line = s.port.line
      ∧ (s.takeStanding src value).port.response = s.port.response
      ∧ (s.takeStanding src value).port.resetPending = s.port.resetPending
      ∧ (s.takeStanding src value).port.enables = s.port.enables := by
  unfold State.takeStanding
  split <;> simp

@[simp] theorem State.startCommitCheck_frame (s : State) :
    s.startCommitCheck.pending = s.pending ∧ s.startCommitCheck.choices = s.choices ∧ s.startCommitCheck.pins = s.pins
      ∧ s.startCommitCheck.ownId = s.ownId
      ∧ s.startCommitCheck.config = s.config ∧ s.startCommitCheck.committed = s.committed ∧ s.startCommitCheck.mbi = s.mbi
      ∧ s.startCommitCheck.roster = s.roster ∧ s.startCommitCheck.closure = s.closure ∧ s.startCommitCheck.conn = s.conn
      ∧ s.startCommitCheck.switches = s.switches ∧ s.startCommitCheck.meas.sample = s.meas.sample
      ∧ s.startCommitCheck.charge = s.charge ∧ s.startCommitCheck.det = s.det ∧ s.startCommitCheck.fault = s.fault
      ∧ s.startCommitCheck.power.phase = s.power.phase ∧ s.startCommitCheck.power.latch = s.power.latch
      ∧ s.startCommitCheck.power.wakeLineArmed = s.power.wakeLineArmed
      ∧ s.startCommitCheck.power.wakeLineRun = s.power.wakeLineRun
      ∧ s.startCommitCheck.power.pulseTimer = s.power.pulseTimer
      ∧ s.startCommitCheck.power.checkFailed = s.power.checkFailed
      ∧ s.startCommitCheck.power.checkFlag = s.power.checkFlag ∧ s.startCommitCheck.power.wakeCheck = s.power.wakeCheck
      ∧ s.startCommitCheck.port = s.port := by
  simp [State.startCommitCheck]

@[simp] theorem State.startCommitCheck_power (s : State) :
    s.startCommitCheck.power.check = .running ∧ s.startCommitCheck.power.checkTimer = some selfCheckMs
      ∧ s.startCommitCheck.power.commitCheck = true ∧ s.startCommitCheck.meas.cycleTimer = none := by
  simp [State.startCommitCheck, State.startSelfCheck]

@[simp] theorem State.commit_frame (current : Nat) (s : State) :
    (s.commit current).pending = s.pending ∧ (s.commit current).choices = s.choices ∧ (s.commit current).pins = s.pins
      ∧ (s.commit current).ownId = s.ownId ∧ (s.commit current).config = s.config
      ∧ (s.commit current).mbi.line = s.mbi.line ∧ (s.commit current).mbi.tx = s.mbi.tx
      ∧ (s.commit current).mbi.tec = s.mbi.tec ∧ (s.commit current).mbi.recCount = s.mbi.recCount
      ∧ (s.commit current).mbi.rejectMuted = s.mbi.rejectMuted
      ∧ (s.commit current).mbi.permanentSilence = s.mbi.permanentSilence
      ∧ (s.commit current).mbi.goodCount = s.mbi.goodCount
      ∧ (s.commit current).mbi.silenceTimer = s.mbi.silenceTimer
      ∧ (s.commit current).mbi.slotDriven = s.mbi.slotDriven ∧ (s.commit current).roster = s.roster
      ∧ (s.commit current).closure.claimNumber = s.closure.claimNumber
      ∧ (s.commit current).closure.holdOff = s.closure.holdOff ∧ (s.commit current).conn.joined = s.conn.joined
      ∧ (s.commit current).meas.sample = s.meas.sample ∧ (s.commit current).det.runDsg = s.det.runDsg
      ∧ (s.commit current).det.runChg = s.det.runChg ∧ (s.commit current).det.tempTrip = s.det.tempTrip
      ∧ (s.commit current).det.busOv = s.det.busOv ∧ (s.commit current).det.ocDsg = s.det.ocDsg
      ∧ (s.commit current).det.ocChg = s.det.ocChg ∧ (s.commit current).det.modOv = s.det.modOv
      ∧ (s.commit current).det.modUv = s.det.modUv
      ∧ (s.commit current).det.wakeCurrentArmed = s.det.wakeCurrentArmed
      ∧ (s.commit current).det.wakeCurrentRun = s.det.wakeCurrentRun
      ∧ (s.commit current).fault.portHolds = s.fault.portHolds ∧ (s.commit current).power.phase = s.power.phase
      ∧ (s.commit current).power.latch = s.power.latch
      ∧ (s.commit current).power.wakeLineArmed = s.power.wakeLineArmed
      ∧ (s.commit current).power.wakeLineRun = s.power.wakeLineRun
      ∧ (s.commit current).power.pulseTimer = s.power.pulseTimer
      ∧ (s.commit current).power.checkFailed = s.power.checkFailed
      ∧ (s.commit current).power.checkFlag = s.power.checkFlag
      ∧ (s.commit current).power.wakeCheck = s.power.wakeCheck ∧ (s.commit current).port.line = s.port.line
      ∧ (s.commit current).port.response = s.port.response
      ∧ (s.commit current).port.resetPending = s.port.resetPending
      ∧ (s.commit current).port.enables = s.port.enables := by
  simp [State.commit]

@[simp] theorem State.leaveClaim_frame (s : State) :
    s.leaveClaim.pending = s.pending ∧ s.leaveClaim.choices = s.choices ∧ s.leaveClaim.pins = s.pins
      ∧ s.leaveClaim.ownId = s.ownId
      ∧ s.leaveClaim.config = s.config ∧ s.leaveClaim.committed = s.committed ∧ s.leaveClaim.mbi.bus = s.mbi.bus
      ∧ s.leaveClaim.mbi.line = s.mbi.line ∧ s.leaveClaim.mbi.tx = s.mbi.tx ∧ s.leaveClaim.mbi.tec = s.mbi.tec
      ∧ s.leaveClaim.mbi.recCount = s.mbi.recCount ∧ s.leaveClaim.mbi.rejectMuted = s.mbi.rejectMuted
      ∧ s.leaveClaim.mbi.permanentSilence = s.mbi.permanentSilence ∧ s.leaveClaim.mbi.goodCount = s.mbi.goodCount
      ∧ s.leaveClaim.mbi.silenceTimer = s.mbi.silenceTimer ∧ s.leaveClaim.mbi.slotDriven = s.mbi.slotDriven
      ∧ s.leaveClaim.roster = s.roster ∧ s.leaveClaim.closure.record = s.closure.record
      ∧ s.leaveClaim.closure.claimNumber = s.closure.claimNumber ∧ s.leaveClaim.closure.holdOff = s.closure.holdOff
      ∧ s.leaveClaim.closure.quiet = s.closure.quiet ∧ s.leaveClaim.conn = s.conn
      ∧ s.leaveClaim.switches = s.switches ∧ s.leaveClaim.meas = s.meas ∧ s.leaveClaim.charge = s.charge
      ∧ s.leaveClaim.det = s.det ∧ s.leaveClaim.fault = s.fault ∧ s.leaveClaim.power = s.power
      ∧ s.leaveClaim.port = s.port := by
  unfold State.leaveClaim
  (repeat' split) <;> simp

@[simp] theorem State.enterReleasing_frame (s : State) :
    s.enterReleasing.pending = s.pending ∧ s.enterReleasing.choices = s.choices ∧ s.enterReleasing.pins = s.pins
      ∧ s.enterReleasing.ownId = s.ownId
      ∧ s.enterReleasing.config = s.config ∧ s.enterReleasing.committed = s.committed
      ∧ s.enterReleasing.mbi.bus = s.mbi.bus ∧ s.enterReleasing.mbi.line = s.mbi.line
      ∧ s.enterReleasing.mbi.tx = s.mbi.tx ∧ s.enterReleasing.mbi.withdrawal = s.mbi.withdrawal
      ∧ s.enterReleasing.mbi.tec = s.mbi.tec ∧ s.enterReleasing.mbi.recCount = s.mbi.recCount
      ∧ s.enterReleasing.mbi.rejectMuted = s.mbi.rejectMuted
      ∧ s.enterReleasing.mbi.permanentSilence = s.mbi.permanentSilence
      ∧ s.enterReleasing.mbi.goodCount = s.mbi.goodCount ∧ s.enterReleasing.mbi.silenceTimer = s.mbi.silenceTimer
      ∧ s.enterReleasing.mbi.slotDriven = s.mbi.slotDriven ∧ s.enterReleasing.roster = s.roster
      ∧ s.enterReleasing.closure.claimNumber = s.closure.claimNumber
      ∧ s.enterReleasing.closure.claim = s.closure.claim
      ∧ s.enterReleasing.closure.lastOutcome = s.closure.lastOutcome
      ∧ s.enterReleasing.closure.holdOff = s.closure.holdOff ∧ s.enterReleasing.closure.quiet = s.closure.quiet
      ∧ s.enterReleasing.conn.joined = s.conn.joined ∧ s.enterReleasing.conn.sleepPending = s.conn.sleepPending
      ∧ s.enterReleasing.conn.statusTimer = s.conn.statusTimer ∧ s.enterReleasing.meas = s.meas
      ∧ s.enterReleasing.charge = s.charge ∧ s.enterReleasing.det = s.det ∧ s.enterReleasing.fault = s.fault
      ∧ s.enterReleasing.power = s.power ∧ s.enterReleasing.port.line = s.port.line
      ∧ s.enterReleasing.port.response = s.port.response ∧ s.enterReleasing.port.resetPending = s.port.resetPending
      ∧ s.enterReleasing.port.enables = s.port.enables := by
  simp [State.enterReleasing]

@[simp] theorem State.acknowledge_frame (src : Source) (s : State) :
    (s.acknowledge src).pending = s.pending ∧ (s.acknowledge src).choices = s.choices
      ∧ (s.acknowledge src).pins = s.pins
      ∧ (s.acknowledge src).ownId = s.ownId ∧ (s.acknowledge src).config = s.config
      ∧ (s.acknowledge src).committed = s.committed ∧ (s.acknowledge src).mbi.bus = s.mbi.bus
      ∧ (s.acknowledge src).mbi.line = s.mbi.line ∧ (s.acknowledge src).mbi.tx = s.mbi.tx
      ∧ (s.acknowledge src).mbi.withdrawal = s.mbi.withdrawal ∧ (s.acknowledge src).mbi.tec = s.mbi.tec
      ∧ (s.acknowledge src).mbi.recCount = s.mbi.recCount ∧ (s.acknowledge src).mbi.rejectMuted = s.mbi.rejectMuted
      ∧ (s.acknowledge src).mbi.permanentSilence = s.mbi.permanentSilence
      ∧ (s.acknowledge src).mbi.goodCount = s.mbi.goodCount
      ∧ (s.acknowledge src).mbi.silenceTimer = s.mbi.silenceTimer
      ∧ (s.acknowledge src).mbi.slotDriven = s.mbi.slotDriven ∧ (s.acknowledge src).roster = s.roster
      ∧ (s.acknowledge src).closure = s.closure ∧ (s.acknowledge src).conn = s.conn
      ∧ (s.acknowledge src).switches = s.switches ∧ (s.acknowledge src).meas = s.meas
      ∧ (s.acknowledge src).charge = s.charge ∧ (s.acknowledge src).det = s.det
      ∧ (s.acknowledge src).fault.portHolds = s.fault.portHolds
      ∧ (s.acknowledge src).fault.closingHold = s.fault.closingHold
      ∧ (s.acknowledge src).fault.lockout = s.fault.lockout
      ∧ (s.acknowledge src).fault.tripCounter = s.fault.tripCounter
      ∧ (s.acknowledge src).fault.history = s.fault.history ∧ (s.acknowledge src).power = s.power
      ∧ (s.acknowledge src).port = s.port := by
  unfold State.acknowledge
  split <;> simp

@[simp] theorem State.acknowledgeAll_frame (l : List Source) (s : State) :
    (s.acknowledgeAll l).pending = s.pending ∧ (s.acknowledgeAll l).choices = s.choices
      ∧ (s.acknowledgeAll l).pins = s.pins
      ∧ (s.acknowledgeAll l).ownId = s.ownId ∧ (s.acknowledgeAll l).config = s.config
      ∧ (s.acknowledgeAll l).committed = s.committed ∧ (s.acknowledgeAll l).mbi.bus = s.mbi.bus
      ∧ (s.acknowledgeAll l).mbi.line = s.mbi.line ∧ (s.acknowledgeAll l).mbi.tx = s.mbi.tx
      ∧ (s.acknowledgeAll l).mbi.withdrawal = s.mbi.withdrawal ∧ (s.acknowledgeAll l).mbi.tec = s.mbi.tec
      ∧ (s.acknowledgeAll l).mbi.recCount = s.mbi.recCount
      ∧ (s.acknowledgeAll l).mbi.rejectMuted = s.mbi.rejectMuted
      ∧ (s.acknowledgeAll l).mbi.permanentSilence = s.mbi.permanentSilence
      ∧ (s.acknowledgeAll l).mbi.goodCount = s.mbi.goodCount
      ∧ (s.acknowledgeAll l).mbi.silenceTimer = s.mbi.silenceTimer
      ∧ (s.acknowledgeAll l).mbi.slotDriven = s.mbi.slotDriven ∧ (s.acknowledgeAll l).roster = s.roster
      ∧ (s.acknowledgeAll l).closure = s.closure ∧ (s.acknowledgeAll l).conn = s.conn
      ∧ (s.acknowledgeAll l).switches = s.switches ∧ (s.acknowledgeAll l).meas = s.meas
      ∧ (s.acknowledgeAll l).charge = s.charge ∧ (s.acknowledgeAll l).det = s.det
      ∧ (s.acknowledgeAll l).fault.portHolds = s.fault.portHolds
      ∧ (s.acknowledgeAll l).fault.closingHold = s.fault.closingHold
      ∧ (s.acknowledgeAll l).fault.lockout = s.fault.lockout
      ∧ (s.acknowledgeAll l).fault.tripCounter = s.fault.tripCounter
      ∧ (s.acknowledgeAll l).fault.history = s.fault.history ∧ (s.acknowledgeAll l).power = s.power
      ∧ (s.acknowledgeAll l).port = s.port := by
  induction l generalizing s with
  | nil => simp [State.acknowledgeAll]
  | cons src rest ih => simp [State.acknowledgeAll, ih]

@[simp] theorem State.postponedAll_frame (l : List Source) (s : State) :
    (s.postponedAll l).pending = s.pending ∧ (s.postponedAll l).choices = s.choices ∧ (s.postponedAll l).pins = s.pins
      ∧ (s.postponedAll l).ownId = s.ownId ∧ (s.postponedAll l).config = s.config
      ∧ (s.postponedAll l).committed = s.committed ∧ (s.postponedAll l).mbi.bus = s.mbi.bus
      ∧ (s.postponedAll l).mbi.line = s.mbi.line ∧ (s.postponedAll l).mbi.tx = s.mbi.tx
      ∧ (s.postponedAll l).mbi.tec = s.mbi.tec ∧ (s.postponedAll l).mbi.recCount = s.mbi.recCount
      ∧ (s.postponedAll l).mbi.rejectMuted = s.mbi.rejectMuted
      ∧ (s.postponedAll l).mbi.permanentSilence = s.mbi.permanentSilence
      ∧ (s.postponedAll l).mbi.goodCount = s.mbi.goodCount
      ∧ (s.postponedAll l).mbi.silenceTimer = s.mbi.silenceTimer
      ∧ (s.postponedAll l).mbi.slotDriven = s.mbi.slotDriven ∧ (s.postponedAll l).roster = s.roster
      ∧ (s.postponedAll l).closure.claimNumber = s.closure.claimNumber
      ∧ (s.postponedAll l).closure.holdOff = s.closure.holdOff ∧ (s.postponedAll l).conn.joined = s.conn.joined
      ∧ (s.postponedAll l).conn.statusTimer = s.conn.statusTimer ∧ (s.postponedAll l).meas = s.meas
      ∧ (s.postponedAll l).charge = s.charge ∧ (s.postponedAll l).det = s.det
      ∧ (s.postponedAll l).fault.portHolds = s.fault.portHolds ∧ (s.postponedAll l).power = s.power
      ∧ (s.postponedAll l).port.line = s.port.line ∧ (s.postponedAll l).port.response = s.port.response
      ∧ (s.postponedAll l).port.resetPending = s.port.resetPending
      ∧ (s.postponedAll l).port.enables = s.port.enables := by
  induction l generalizing s with
  | nil => simp [State.postponedAll]
  | cons src rest ih => simp [State.postponedAll, ih]

@[simp] theorem State.clearLapsed_frame (mask : Half) (src : Source) (s : State) :
    (s.clearLapsed mask src).pending = s.pending ∧ (s.clearLapsed mask src).choices = s.choices
      ∧ (s.clearLapsed mask src).pins = s.pins
      ∧ (s.clearLapsed mask src).ownId = s.ownId ∧ (s.clearLapsed mask src).config = s.config
      ∧ (s.clearLapsed mask src).committed = s.committed ∧ (s.clearLapsed mask src).mbi.bus = s.mbi.bus
      ∧ (s.clearLapsed mask src).mbi.line = s.mbi.line ∧ (s.clearLapsed mask src).mbi.tx = s.mbi.tx
      ∧ (s.clearLapsed mask src).mbi.withdrawal = s.mbi.withdrawal ∧ (s.clearLapsed mask src).mbi.tec = s.mbi.tec
      ∧ (s.clearLapsed mask src).mbi.recCount = s.mbi.recCount
      ∧ (s.clearLapsed mask src).mbi.rejectMuted = s.mbi.rejectMuted
      ∧ (s.clearLapsed mask src).mbi.permanentSilence = s.mbi.permanentSilence
      ∧ (s.clearLapsed mask src).mbi.goodCount = s.mbi.goodCount
      ∧ (s.clearLapsed mask src).mbi.silenceTimer = s.mbi.silenceTimer
      ∧ (s.clearLapsed mask src).mbi.slotDriven = s.mbi.slotDriven ∧ (s.clearLapsed mask src).roster = s.roster
      ∧ (s.clearLapsed mask src).closure = s.closure ∧ (s.clearLapsed mask src).conn = s.conn
      ∧ (s.clearLapsed mask src).switches = s.switches ∧ (s.clearLapsed mask src).meas = s.meas
      ∧ (s.clearLapsed mask src).charge = s.charge ∧ (s.clearLapsed mask src).det = s.det
      ∧ (s.clearLapsed mask src).fault.portHolds = s.fault.portHolds
      ∧ (s.clearLapsed mask src).fault.closingHold = s.fault.closingHold
      ∧ (s.clearLapsed mask src).fault.lockout = s.fault.lockout
      ∧ (s.clearLapsed mask src).fault.tripCounter = s.fault.tripCounter
      ∧ (s.clearLapsed mask src).fault.history = s.fault.history ∧ (s.clearLapsed mask src).power = s.power
      ∧ (s.clearLapsed mask src).port = s.port := by
  unfold State.clearLapsed
  split <;> simp

@[simp] theorem State.clearLapsedAll_frame (mask : Half) (l : List Source) (s : State) :
    (s.clearLapsedAll mask l).pending = s.pending ∧ (s.clearLapsedAll mask l).choices = s.choices
      ∧ (s.clearLapsedAll mask l).pins = s.pins
      ∧ (s.clearLapsedAll mask l).ownId = s.ownId ∧ (s.clearLapsedAll mask l).config = s.config
      ∧ (s.clearLapsedAll mask l).committed = s.committed ∧ (s.clearLapsedAll mask l).mbi.bus = s.mbi.bus
      ∧ (s.clearLapsedAll mask l).mbi.line = s.mbi.line ∧ (s.clearLapsedAll mask l).mbi.tx = s.mbi.tx
      ∧ (s.clearLapsedAll mask l).mbi.withdrawal = s.mbi.withdrawal ∧ (s.clearLapsedAll mask l).mbi.tec = s.mbi.tec
      ∧ (s.clearLapsedAll mask l).mbi.recCount = s.mbi.recCount
      ∧ (s.clearLapsedAll mask l).mbi.rejectMuted = s.mbi.rejectMuted
      ∧ (s.clearLapsedAll mask l).mbi.permanentSilence = s.mbi.permanentSilence
      ∧ (s.clearLapsedAll mask l).mbi.goodCount = s.mbi.goodCount
      ∧ (s.clearLapsedAll mask l).mbi.silenceTimer = s.mbi.silenceTimer
      ∧ (s.clearLapsedAll mask l).mbi.slotDriven = s.mbi.slotDriven ∧ (s.clearLapsedAll mask l).roster = s.roster
      ∧ (s.clearLapsedAll mask l).closure = s.closure ∧ (s.clearLapsedAll mask l).conn = s.conn
      ∧ (s.clearLapsedAll mask l).switches = s.switches ∧ (s.clearLapsedAll mask l).meas = s.meas
      ∧ (s.clearLapsedAll mask l).charge = s.charge ∧ (s.clearLapsedAll mask l).det = s.det
      ∧ (s.clearLapsedAll mask l).fault.portHolds = s.fault.portHolds
      ∧ (s.clearLapsedAll mask l).fault.closingHold = s.fault.closingHold
      ∧ (s.clearLapsedAll mask l).fault.lockout = s.fault.lockout
      ∧ (s.clearLapsedAll mask l).fault.tripCounter = s.fault.tripCounter
      ∧ (s.clearLapsedAll mask l).fault.history = s.fault.history ∧ (s.clearLapsedAll mask l).power = s.power
      ∧ (s.clearLapsedAll mask l).port = s.port := by
  induction l generalizing s with
  | nil => simp [State.clearLapsedAll]
  | cons src rest ih => simp [State.clearLapsedAll, ih]

/-- The fall of SSN touches the select line, the response, and in SLEEP the latch and the wake pulse (R157, R177). -/
@[simp] theorem State.selectAsleep_frame (s : State) :
    s.selectAsleep.pending = s.pending ∧ s.selectAsleep.choices = s.choices ∧ s.selectAsleep.pins = s.pins
      ∧ s.selectAsleep.ownId = s.ownId ∧ s.selectAsleep.config = s.config ∧ s.selectAsleep.committed = s.committed
      ∧ s.selectAsleep.mbi = s.mbi ∧ s.selectAsleep.roster = s.roster ∧ s.selectAsleep.closure = s.closure
      ∧ s.selectAsleep.conn = s.conn ∧ s.selectAsleep.switches = s.switches ∧ s.selectAsleep.meas = s.meas
      ∧ s.selectAsleep.charge = s.charge ∧ s.selectAsleep.det = s.det ∧ s.selectAsleep.fault = s.fault
      ∧ s.selectAsleep.power.check = s.power.check ∧ s.selectAsleep.port.resetPending = s.port.resetPending
      ∧ s.selectAsleep.port.events = s.port.events ∧ s.selectAsleep.port.enables = s.port.enables := by
  unfold State.selectAsleep
  dsimp only
  split <;> simp [Power.startPulse]

@[simp] theorem State.select_frame (s : State) :
    s.select.pending = s.pending ∧ s.select.choices = s.choices ∧ s.select.pins = s.pins
      ∧ s.select.ownId = s.ownId ∧ s.select.config = s.config ∧ s.select.committed = s.committed
      ∧ s.select.mbi = s.mbi ∧ s.select.roster = s.roster ∧ s.select.closure = s.closure
      ∧ s.select.conn = s.conn ∧ s.select.switches = s.switches ∧ s.select.meas = s.meas
      ∧ s.select.charge = s.charge ∧ s.select.det = s.det ∧ s.select.fault = s.fault
      ∧ s.select.power.check = s.power.check ∧ s.select.port.resetPending = s.port.resetPending
      ∧ s.select.port.events = s.port.events ∧ s.select.port.enables = s.port.enables := by
  unfold State.select
  split <;> simp

@[simp] theorem State.selected_frame (s : State) :
    s.selected.pending = s.pending ∧ s.selected.choices = s.choices ∧ s.selected.pins = s.pins
      ∧ s.selected.ownId = s.ownId ∧ s.selected.config = s.config ∧ s.selected.committed = s.committed
      ∧ s.selected.mbi = s.mbi ∧ s.selected.roster = s.roster ∧ s.selected.closure = s.closure
      ∧ s.selected.conn = s.conn ∧ s.selected.switches = s.switches ∧ s.selected.meas = s.meas
      ∧ s.selected.charge = s.charge ∧ s.selected.det = s.det ∧ s.selected.fault = s.fault
      ∧ s.selected.power.check = s.power.check ∧ s.selected.port.resetPending = s.port.resetPending
      ∧ s.selected.port.events = s.port.events ∧ s.selected.port.enables = s.port.enables := by
  unfold State.selected
  split <;> simp

/-- A millisecond of SLEEP touches the wake detectors, what they read and the counter of free choices (R125, R157). -/
@[simp] theorem State.tickSleep_frame (s : State) :
    s.tickSleep.pending = s.pending ∧ s.tickSleep.ownId = s.ownId ∧ s.tickSleep.config = s.config
      ∧ s.tickSleep.committed = s.committed ∧ s.tickSleep.mbi = s.mbi ∧ s.tickSleep.roster = s.roster
      ∧ s.tickSleep.closure = s.closure ∧ s.tickSleep.conn = s.conn ∧ s.tickSleep.switches = s.switches
      ∧ s.tickSleep.meas = s.meas ∧ s.tickSleep.charge = s.charge ∧ s.tickSleep.fault = s.fault
      ∧ s.tickSleep.power.phase = s.power.phase ∧ s.tickSleep.power.latch = s.power.latch
      ∧ s.tickSleep.port = s.port := by
  simp [State.tickSleep]

/-- A millisecond without VKA touches the phase and the counter of free choices (R172). -/
@[simp] theorem State.tickUnpowered_frame (s : State) :
    s.tickUnpowered.pending = s.pending ∧ s.tickUnpowered.pins = s.pins ∧ s.tickUnpowered.ownId = s.ownId
      ∧ s.tickUnpowered.config = s.config ∧ s.tickUnpowered.committed = s.committed ∧ s.tickUnpowered.mbi = s.mbi
      ∧ s.tickUnpowered.roster = s.roster ∧ s.tickUnpowered.closure = s.closure ∧ s.tickUnpowered.conn = s.conn
      ∧ s.tickUnpowered.switches = s.switches ∧ s.tickUnpowered.meas = s.meas
      ∧ s.tickUnpowered.charge = s.charge ∧ s.tickUnpowered.det = s.det ∧ s.tickUnpowered.fault = s.fault
      ∧ s.tickUnpowered.power.latch = s.power.latch ∧ s.tickUnpowered.port = s.port := by
  simp [State.tickUnpowered]

/-- A millisecond without VKA ends without it or in the power-on reset (R172). -/
theorem State.tickUnpowered_phase (s : State) :
    s.tickUnpowered.power.phase = .unpowered ∨ s.tickUnpowered.power.phase = .powerOnReset := by
  unfold State.tickUnpowered
  cases Config.freeVka s.choices <;> simp

/-! ## The gate outputs -/

/-- Neither gate output is driven while VKA is absent (R91). -/
theorem State.gate_of_unpowered (closed : Bool) {s : State} (h : s.power.phase = .unpowered) :
    s.gate closed = .undriven := by
  simp [State.gate, h]

/-- The keep-alive domain holds both gate outputs off in SLEEP and up to the end of the power-up (R91). -/
theorem State.gate_of_asleep (closed : Bool) {s : State} (h : s.asleep = true) : s.gate closed = .off := by
  unfold State.asleep at h
  unfold State.gate
  cases hp : s.power.phase <;> simp_all

/-- A gate output follows its commanded state elsewhere (R90). -/
theorem State.gate_of_driven (closed : Bool) {s : State} (h : s.asleep = false) (hp : s.power.phase ≠ .unpowered) :
    s.gate closed = if closed then .on else .off := by
  unfold State.asleep at h
  unfold State.gate
  cases hq : s.power.phase <;> simp_all

end Sys2Proof.Machine
end

