-- ==== Sys2Proof/Laws/Endings.lean ====
section
/-! SUPPORT. How a command ends and when it is taken: the end of a command, the port's judgement, hearing a frame. -/

namespace Sys2Proof.Machine

/-- The conditions of R74 other than the voltage condition, as the test computes them. -/
theorem State.claimConditions_iff (s : State) : s.claimConditions.all id = true ↔ s.MayClaim := by
  simp [State.claimConditions, State.MayClaim, ownConnectionPending]

/-- Whether a peer announces a closure, as the Roster computes it. -/
theorem State.anyAnnounces_iff (s : State) : anyAnnounces s.roster = true ↔ s.PeerAnnounces := by
  simp [anyAnnounces, State.PeerAnnounces, RosterEntry.announcesClosure]

/-- The bus is live in the units of R166 (R76). -/
theorem Sample.busLive_iff (x : Sample) (c : ConfigRecord) :
    x.busLive c = true ↔ 5 * fieldNat c.deadBus ≤ x.vbus.toNat := by
  simp [Sample.busLive, ConfigRecord.deadBusCount, Nat.mul_comm]

/-- The difference of two voltages, taken without sign (R76). -/
theorem voltageGap_eq (a b : Half) : voltageGap a b = ((a.toNat : Int) - b.toNat).natAbs := by
  unfold voltageGap
  omega

/-- The voltage condition of R76 holds exactly where the verdict on the latest sample says so. -/
theorem State.voltageVerdict_holds_iff (s : State) : s.voltageVerdict = .holds ↔ s.VoltageHolds := by
  unfold State.voltageVerdict State.VoltageHolds
  cases hx : s.meas.sample with
  | none => simp
  | some x =>
    have ha := State.anyAnnounces_iff s
    have hw : s.config.windowCount = 5 * fieldNat s.config.window := Nat.mul_comm _ _
    by_cases hl : x.busLive s.config = true
    · have hl' := (x.busLive_iff s.config).mp hl
      simp [hl, hl', voltageGap_eq, hw, show ¬ x.vbus.toNat < 5 * fieldNat s.config.deadBus by omega]
    · have hl' : ¬ 5 * fieldNat s.config.deadBus ≤ x.vbus.toNat := fun h => hl ((x.busLive_iff s.config).mpr h)
      simp [hl, hl', show x.vbus.toNat < 5 * fieldNat s.config.deadBus by omega, ← ha]

/-- The bus-sense conflict of R76, as the verdict on the latest sample says it. -/
theorem State.voltageVerdict_conflict_iff (s : State) :
    s.voltageVerdict = .deadBesideClosure ↔
      s.PeerAnnounces ∧ ∃ x, s.meas.sample = some x ∧ x.vbus.toNat < 5 * fieldNat s.config.deadBus := by
  unfold State.voltageVerdict
  cases hx : s.meas.sample with
  | none => simp
  | some x =>
    have ha := State.anyAnnounces_iff s
    by_cases hl : x.busLive s.config = true
    · have hl' := (x.busLive_iff s.config).mp hl
      simp only [hl, if_true, Option.some.injEq, exists_eq_left',
        show ¬ x.vbus.toNat < 5 * fieldNat s.config.deadBus by omega, and_false, iff_false]
      split <;> simp
    · have hl' : ¬ 5 * fieldNat s.config.deadBus ≤ x.vbus.toNat := fun h => hl ((x.busLive_iff s.config).mpr h)
      simp [hl, show x.vbus.toNat < 5 * fieldNat s.config.deadBus by omega, ← ha]

/-- An eligible station, as the test sees it. -/
theorem State.eligible_iff (s : State) :
    s.Eligible ↔ s.claimConditions.all id = true ∧ s.voltageVerdict = .holds := by
  rw [State.Eligible, State.claimConditions_iff, State.voltageVerdict_holds_iff]

/-- A bus-sense conflict, as the test sees it. -/
theorem State.senseConflict_iff (s : State) :
    s.SenseConflict ↔ s.claimConditions.all id = true ∧ s.voltageVerdict = .deadBesideClosure := by
  rw [State.SenseConflict, State.claimConditions_iff, State.voltageVerdict_conflict_iff]

/-- The test of an eligible station begins its claim. -/
theorem State.eligibilityTest_of_eligible (s : State) (h : s.Eligible) : s.eligibilityTest = s.beginClaim := by
  obtain ⟨hc, hv⟩ := s.eligible_iff.mp h
  simp only [State.eligibilityTest, hc, hv, if_true]

/-- The test of a station with a bus-sense conflict sets the event. -/
theorem State.eligibilityTest_of_conflict (s : State) (h : s.SenseConflict) :
    s.eligibilityTest = s.setEvent .busSenseConflict := by
  obtain ⟨hc, hv⟩ := s.senseConflict_iff.mp h
  simp only [State.eligibilityTest, hc, hv, if_true]

/-- The test of any other station changes nothing. -/
theorem State.eligibilityTest_of_fails (s : State) (he : ¬ s.Eligible) (hc : ¬ s.SenseConflict) :
    s.eligibilityTest = s := by
  rw [State.eligible_iff] at he
  rw [State.senseConflict_iff] at hc
  unfold State.eligibilityTest
  split
  · next h =>
    split <;> first | rfl | (next hv => simp_all)
  · rfl

/-- Eligibility is a matter of what the test looks at. -/
theorem State.eligible_of_sameView (s u : State) (h : u.claimView = s.claimView) : u.Eligible ↔ s.Eligible := by
  simp only [State.claimView, Prod.mk.injEq] at h
  rw [State.eligible_iff, State.eligible_iff, h.1, h.2.1]

/-- A bus-sense conflict is a matter of what the test looks at. -/
theorem State.senseConflict_of_sameView (s u : State) (h : u.claimView = s.claimView) :
    u.SenseConflict ↔ s.SenseConflict := by
  simp only [State.claimView, Prod.mk.injEq] at h
  rw [State.senseConflict_iff, State.senseConflict_iff, h.1, h.2.1]

/-- The end of a command answers a next state, which is an end of the command in the sense of Safety.lean. -/
theorem conclude_end (s u : State) : ∃ t, conclude s u = .next t ∧ EndOfCommand s u t := by
  refine ⟨_, rfl, ?_, ?_, ?_⟩ <;> unfold State.retest
  · intro he
    by_cases hv : u.claimView = s.claimView
    · exact Or.inr ⟨(State.eligible_of_sameView s u hv).mp he, by simp [hv]⟩
    · exact Or.inl (by simp [hv, State.eligibilityTest_of_eligible u he])
  · intro hc
    by_cases hv : u.claimView = s.claimView
    · exact Or.inr ⟨(State.senseConflict_of_sameView s u hv).mp hc, by simp [hv]⟩
    · exact Or.inl (by simp [hv, State.eligibilityTest_of_conflict u hc])
  · intro he hc
    rw [State.eligibilityTest_of_fails u he hc, ite_self]

/-- The offer changes nothing that the test looks at. -/
theorem State.offer_claimView (s : State) : s.offer.claimView = s.claimView := by
  unfold State.offer
  split
  · split <;> rfl
  · rfl

/-- A station that has just begun its claim is not eligible. -/
theorem State.beginClaim_not_eligible (s : State) (h : s.Eligible) : ¬ s.beginClaim.Eligible := by
  intro hb
  have hs : s.conn.state = .isolated := h.1.1
  have hc := hb.1.1
  simp [State.beginClaim, State.changeConn, hs, State.handStatus, State.setEvent] at hc

/-- No command that ends with `conclude` leaves a station eligible that was not so before (R75). -/
theorem conclude_not_eligible (s u t : State) (hs : ¬ s.Eligible) (h : conclude s u = .next t) : ¬ t.Eligible := by
  obtain ⟨t', h', he, hc, hn⟩ := conclude_end s u
  have ht : t = t' := by rw [h] at h'; injection h'
  subst ht
  by_cases hu : u.Eligible
  · rcases he hu with rfl | ⟨hse, _⟩
    · rw [State.eligible_of_sameView _ _ (State.offer_claimView _)]
      exact State.beginClaim_not_eligible u hu
    · exact absurd hse hs
  · have hev : ∀ (e : Event) (v : State), (v.setEvent e).claimView = v.claimView := fun _ _ => rfl
    by_cases hcf : u.SenseConflict
    · rcases hc hcf with rfl | ⟨_, rfl⟩
      · rwa [State.eligible_of_sameView _ _ (State.offer_claimView _), State.eligible_of_sameView _ _ (hev _ _)]
      · rwa [State.eligible_of_sameView _ _ (State.offer_claimView _)]
    · rw [hn hu hcf, State.eligible_of_sameView _ _ (State.offer_claimView _)]
      exact hu

/-- Where a condition of R74 fails, the command ends with the offer alone. -/
theorem conclude_of_condition_fails (before u : State) (h : u.claimConditions.all id = false) :
    conclude before u = .next u.offer := by
  simp [conclude, State.retest, State.eligibilityTest, h]

/-- Outside ISOLATED the command ends with the offer alone. -/
theorem conclude_of_not_isolated (before u : State) (h : u.conn.state ≠ .isolated) :
    conclude before u = .next u.offer :=
  conclude_of_condition_fails before u (by simp [State.claimConditions, h])

/-- While a self-check runs the command ends with the offer alone. -/
theorem conclude_of_running_check (before u : State) (h : u.power.check = .running) :
    conclude before u = .next u.offer :=
  conclude_of_condition_fails before u (by simp [State.claimConditions, h])

/-- With the MBI not ACTIVE the command ends with nothing further. -/
theorem conclude_of_not_active (before u : State) (h : u.mbi.bus ≠ .active) : conclude before u = .next u := by
  rw [conclude_of_condition_fails before u (by simp [State.claimConditions, h])]
  simp [State.offer, h]

/-- With the line not idle there is no offer at the end of a command. -/
theorem State.offer_of_not_idle (s : State) (h : s.mbi.line ≠ .idle) : s.offer = s := by
  simp [State.offer, h]

/-- Where the port judges, SSN has fallen already. -/
theorem State.selected_of_judged (s : State) (h : s.PortJudges) : s.selected = s := by
  simp [State.selected, h.2.1]

/-- What the port judges is answered. -/
theorem portAnswered_of_judged (s : State) (effect : State → Answer) (h : s.PortJudges) :
    portAnswered s effect = effect s := by
  obtain ⟨hrun, hline, hresp⟩ := h
  simp [portAnswered, State.selected, State.portMeets, hrun, hline, hresp]

/-- A request that the port judges has its effect. -/
theorem portRequest_of_taken (s : State) (refusal : List Byte) (effect : State → Answer) (h : s.TakesRequests) :
    portRequest s refusal effect = effect s := by
  simp [portRequest, portAnswered_of_judged s _ h.1, h.2]

/-- A running self-check refuses a request. -/
theorem portRequest_in_check (s : State) (refusal : List Byte) (effect : State → Answer) (h : s.PortJudges)
    (hcheck : s.power.check = .running) : portRequest s refusal effect = .next (s.reply .refusedState refusal) := by
  simp [portRequest, portAnswered_of_judged s _ h, hcheck]

/-- After the fall of SSN it is low. -/
theorem State.select_line (s : State) : s.select.port.line ≠ .released := by
  unfold State.select
  cases h : s.power.phase <;> simp [State.selectAsleep, h]

/-- A row of the port that meets SSN high has the effect that it has after the fall of SSN (log entry 15). -/
theorem portAnswered_of_released (s : State) (effect : State → Answer) (h : s.port.line = .released) :
    portAnswered s effect = portAnswered s.select effect := by
  have hs : s.select.selected = s.select := by simp [State.selected, State.select_line]
  have hr : s.selected = s.select := by simp [State.selected, h]
  simp only [portAnswered, hs, hr]

/-- In RUN an effect bound to RUN is taken. -/
theorem inRun_of_run (s : State) (effect : State → Answer) (h : s.power.phase = .run) :
    inRun s effect = effect s := by
  simp [inRun, h]

/-- A frame that the station hears has its effect and the command ends. -/
theorem heard_of_hears (s : State) (effect : State → State) (h : s.hears = true) :
    heard s effect = conclude s (effect s.receiving) := by
  simp [heard, h]

end Sys2Proof.Machine
end

