-- ==== Sys2Proof/Laws/Effects.lean ====
section
/-! SUPPORT. What the shared operations do: the transmit list, STATUS frames, a change of connection state, the end of a claim, and which sources an operation on the fault register touches. -/

namespace Sys2Proof.Machine

/-! ## The transmit list -/

theorem mem_insertFrame (f g : TxFrame) (l : List TxFrame) : g ∈ insertFrame f l ↔ g = f ∨ g ∈ l := by
  induction l with
  | nil => simp [insertFrame]
  | cons x xs ih =>
    simp only [insertFrame]
    split
    · simp
    · simp only [List.mem_cons, ih]; tauto

/-- A frame joins behind the frames of its rank and of lower rank. -/
theorem insertFrame_eq (f : TxFrame) (l : List TxFrame) :
    insertFrame f l = l.takeWhile (fun g => decide (g.rank ≤ f.rank)) ++ [f]
      ++ l.dropWhile (fun g => decide (g.rank ≤ f.rank)) := by
  induction l with
  | nil => simp [insertFrame]
  | cons x xs ih =>
    simp only [insertFrame]
    split
    · next h => simp [Nat.not_le.mpr h]
    · next h => simp [Nat.le_of_not_lt h, ih]

/-- Whether a frame of a kind is in a list, by membership. -/
theorem hasKind_iff (k : FrameKind) (l : List TxFrame) : hasKind k l = true ↔ ∃ f ∈ l, f.frame.kind = k := by
  induction l with
  | nil => simp [hasKind, findKind]
  | cons x xs ih =>
    unfold hasKind at ih ⊢
    simp only [findKind]
    split
    · next h => simp [h]
    · next h => simp [h, ih]

/-- The first frame of a kind has that kind and is in the list. -/
theorem findKind_some {k : FrameKind} {l : List TxFrame} {f : TxFrame} (h : findKind k l = some f) :
    f.frame.kind = k ∧ f ∈ l := by
  induction l with
  | nil => simp [findKind] at h
  | cons x xs ih =>
    simp only [findKind] at h
    split at h
    · next hx => cases h; exact ⟨hx, by simp⟩
    · exact ⟨(ih h).1, by simp [(ih h).2]⟩

/-- A replaced STATUS keeps its kind, and every other frame is as it was. -/
@[simp] theorem replaceStatus_kind (p : StatusPayload) (f : TxFrame) :
    (replaceStatus p f).frame.kind = f.frame.kind := by
  unfold replaceStatus; split <;> simp_all [Frame.kind]

@[simp] theorem mergeTrip_kind (p : TripPayload) (f : TxFrame) : (mergeTrip p f).frame.kind = f.frame.kind := by
  unfold mergeTrip; split <;> simp_all [Frame.kind]

theorem replaceStatus_of_ne (p : StatusPayload) (f : TxFrame) (h : f.frame.kind ≠ .status) : replaceStatus p f = f := by
  unfold replaceStatus; split <;> simp_all [Frame.kind]

theorem mergeTrip_of_ne (p : TripPayload) (f : TxFrame) (h : f.frame.kind ≠ .trip) : mergeTrip p f = f := by
  unfold mergeTrip; split <;> simp_all [Frame.kind]

theorem replaceStatus_of_status (p : StatusPayload) (f : TxFrame) (h : f.frame.kind = .status) :
    replaceStatus p f = ⟨.status p, f.failed⟩ := by
  rcases f with ⟨fr, n⟩
  cases fr <;> simp_all [Frame.kind, replaceStatus]

/-- A kind is in the list after a frame joins if it was or if the frame is of it. -/
@[simp] theorem hasKind_insertFrame (k : FrameKind) (f : TxFrame) (l : List TxFrame) :
    hasKind k (insertFrame f l) = (decide (f.frame.kind = k) || hasKind k l) := by
  rw [Bool.eq_iff_iff]
  simp only [hasKind_iff, mem_insertFrame, Bool.or_eq_true, decide_eq_true_eq]
  constructor
  · rintro ⟨g, rfl | hg, h⟩
    · exact Or.inl h
    · exact Or.inr ⟨g, hg, h⟩
  · rintro (h | ⟨g, hg, h⟩)
    · exact ⟨f, Or.inl rfl, h⟩
    · exact ⟨g, Or.inr hg, h⟩

@[simp] theorem hasKind_map_replaceStatus (k : FrameKind) (p : StatusPayload) (l : List TxFrame) :
    hasKind k (l.map (replaceStatus p)) = hasKind k l := by
  rw [Bool.eq_iff_iff]; simp [hasKind_iff]

@[simp] theorem hasKind_map_mergeTrip (k : FrameKind) (p : TripPayload) (l : List TxFrame) :
    hasKind k (l.map (mergeTrip p)) = hasKind k l := by
  rw [Bool.eq_iff_iff]; simp [hasKind_iff]

/-! ## What is pending -/

/-- A STATUS taken into the list is in it. -/
theorem Mbi.putStatus_mem (p : StatusPayload) (m : Mbi) : ∃ n, (⟨.status p, n⟩ : TxFrame) ∈ (m.putStatus p).list := by
  unfold Mbi.putStatus
  split
  · next h =>
    obtain ⟨f, hf, hk⟩ := (hasKind_iff _ _).1 h
    refine ⟨f.failed, List.mem_map.2 ⟨f, hf, replaceStatus_of_status p f hk⟩⟩
  · exact ⟨0, by simp [Mbi.join, mem_insertFrame]⟩

/-- A STATUS taken into the list leaves the frames of other kinds. -/
theorem Mbi.mem_putStatus_of_mem (p : StatusPayload) (m : Mbi) (f : TxFrame) (h : f.frame.kind ≠ .status)
    (hf : f ∈ m.list) : f ∈ (m.putStatus p).list := by
  unfold Mbi.putStatus
  split
  · exact List.mem_map.2 ⟨f, hf, replaceStatus_of_ne p f h⟩
  · simp [Mbi.join, mem_insertFrame, hf]

/-- A STATUS handed over leaves the frames of other kinds pending. -/
theorem State.handStatus_pends (s : State) (f : Frame) (h : f.kind ≠ .status) (hf : s.Pends f) :
    s.handStatus.Pends f := by
  obtain ⟨n, hn⟩ := hf
  refine ⟨n, ?_⟩
  unfold State.handStatus State.queueFrame
  split
  · exact hn
  · simp only [Mbi.handStatus]
    split
    · exact hn
    · exact Mbi.mem_putStatus_of_mem _ _ _ h hn

/-- The kinds in the list after a STATUS is handed over. -/
theorem State.handStatus_hasKind (s : State) (k : FrameKind) (h : k ≠ .status) :
    hasKind k s.handStatus.mbi.list = hasKind k s.mbi.list := by
  unfold State.handStatus State.queueFrame
  split
  · rfl
  · simp only [Mbi.handStatus, Mbi.putStatus, Mbi.join]
    (repeat' split) <;> simp [Frame.kind, Ne.symm h]

/-- The STATUS is built from fields that handing it over does not touch. -/
@[simp] theorem State.handStatus_buildStatus (s : State) : s.handStatus.buildStatus = s.buildStatus := by
  simp [State.buildStatus, State.level, State.statusStateByte, State.statusFlagsByte]

@[simp] theorem State.setEvent_buildStatus (e : Event) (s : State) : (s.setEvent e).buildStatus = s.buildStatus := rfl

@[simp] theorem State.reply_buildStatus (r : Result) (d : List Byte) (s : State) :
    (s.reply r d).buildStatus = s.buildStatus := rfl

/-- What the Connection Controller hands over is handed over. -/
theorem State.handStatus_handed (s : State) : s.handStatus.StatusHanded := by
  intro hb
  rw [State.handStatus_buildStatus]
  have hb' : s.mbi.bus = .active := by simpa using hb
  unfold State.handStatus State.queueFrame
  rw [if_neg (by simp [hb'])]
  simp only [Mbi.handStatus, State.Pends]
  split
  · next h => exact Or.inr ⟨by simpa [Mbi.onLine] using h, rfl⟩
  · exact Or.inl (Mbi.putStatus_mem _ _)

/-- An event does not change what is handed over. -/
theorem State.setEvent_handed {e : Event} {s : State} (h : s.StatusHanded) : (s.setEvent e).StatusHanded := h

/-- A frame of the own connection that is handed over is pending in ACTIVE. -/
theorem State.queueFrame_handed (f : Frame) (s : State) (h : f.kind.isOwnConnection = true) :
    (s.queueFrame f).Handed f := by
  intro hb
  have hb' : s.mbi.bus = .active := by simpa using hb
  unfold State.queueFrame
  rw [if_neg (by simp [hb'])]
  cases f <;> simp_all [FrameKind.isOwnConnection, Frame.kind, State.Pends, Mbi.join, mem_insertFrame]

/-! ## Events -/

theorem State.hasEvent_setEvent_self (e : Event) (s : State) : (s.setEvent e).hasEvent e = true := by
  cases e <;> simp [State.hasEvent, State.setEvent, Event.bit, Event.number]

theorem State.hasEvent_setEvent_of_has (e e' : Event) (s : State) (h : s.hasEvent e' = true) :
    (s.setEvent e).hasEvent e' = true := by
  simp_all [State.hasEvent, State.setEvent]

/-! ## A change of connection state -/

/-- The effect of a change of connection state, in one state. -/
theorem State.changeConn_entered (new : ConnState) (path : Path) (s : State) (h : s.conn.state ≠ new) :
    (s.changeConn new path).Entered new := by
  unfold State.changeConn
  rw [if_neg h]
  dsimp only
  refine ⟨by simp, ?_, State.handStatus_handed _, ?_, ?_⟩
  · have := State.hasEvent_setEvent_self .stateChange
    simp_all [State.hasEvent]
  · intro hn; simp [hn]
  · intro h1 h2; simp [h1, h2]

/-- The state after a change of connection state, the same one included. -/
@[simp] theorem State.changeConn_state (new : ConnState) (path : Path) (s : State) :
    (s.changeConn new path).conn.state = new := by
  unfold State.changeConn; split
  · next h => exact h
  · simp

/-- The path after a change into CONNECTED. -/
theorem State.changeConn_path (path : Path) (s : State) (h : s.conn.state ≠ .connected) :
    (s.changeConn .connected path).conn.path = path := by
  unfold State.changeConn
  rw [if_neg h]
  simp

/-- The closure record after a change of connection state. -/
theorem State.changeConn_record (new : ConnState) (path : Path) (s : State) (h : s.conn.state ≠ new) :
    (s.changeConn new path).closure.record = s.recordAfter new := by
  unfold State.changeConn
  rw [if_neg h]
  simp

/-- The switches stay open through every change of connection state. -/
theorem State.changeConn_switches_open (new : ConnState) (path : Path) (s : State)
    (h : s.switches = { chg := false, dsg := false }) :
    (s.changeConn new path).switches = { chg := false, dsg := false } := by
  unfold State.changeConn
  split
  · exact h
  · dsimp only; split <;> simp [h]

/-- An event once set stays set through a change of connection state. -/
theorem State.changeConn_hasEvent (e : Event) (new : ConnState) (path : Path) (s : State) (h : s.hasEvent e = true) :
    (s.changeConn new path).hasEvent e = true := by
  unfold State.changeConn
  split
  · exact h
  · simp_all [State.hasEvent, State.setEvent]

/-! ## The fault register -/

@[simp] theorem FaultRegister.get_set_self (r : FaultRegister) (src : Source) (x : SourceRecord) :
    (r.set src x).get src = x := by cases src <;> rfl

theorem FaultRegister.get_set_of_ne (r : FaultRegister) (src other : Source) (x : SourceRecord) (h : other ≠ src) :
    (r.set src x).get other = r.get other := by
  cases src <;> cases other <;> first | rfl | exact absurd rfl h

/-- The register after the record of a source is written. -/
@[simp] theorem State.setSource_register (src : Source) (x : SourceRecord) (s : State) :
    (s.setSource src x).fault.register = s.fault.register.set src x := by
  unfold State.setSource
  dsimp only
  split <;> simp

/-- Writing the record of a source touches no event, connection or switch. -/
theorem State.setSource_hasTripped {src : Source} {x : SourceRecord} {s : State} (h : s.HasTripped) :
    (s.setSource src x).HasTripped := by
  simpa [State.HasTripped, State.hasEvent] using h

/-! ## Trips -/

/-- A claim in progress is over once it is aborted. -/
@[simp] theorem State.abortClaim_claim (o : ClaimOutcome) (s : State) : (s.abortClaim o).closure.claim = none := by
  unfold State.abortClaim
  split
  · assumption
  · split <;> simp [State.endClaim]

/-- The trip procedure opens the switches, ends a claim and leads to TRIPPED or LOCKOUT. -/
theorem State.tripCore_hasTripped (d : TripCause) (s : State) : (s.tripCore d).HasTripped := by
  unfold State.tripCore
  dsimp only
  have key : ∀ (u : State) (new : ConnState), (new = .tripped ∨ new = .lockout) → u.closure.claim = none →
      u.switches = { chg := false, dsg := false } → ((u.changeConn new .none).setEvent .tripTaken).HasTripped := by
    intro u new hn hc hs
    refine ⟨by simpa using hn, ?_, by simpa using hc, State.hasEvent_setEvent_self _ _⟩
    simpa using State.changeConn_switches_open new .none u hs
  have h := key (((s.openSwitches.recordTrip d s.conn.state).queueFrame
    (.trip ⟨BitVec.ofNat 8 d.code.code, d.scope.code, d.value⟩)).abortClaim .tripped)
    (if d.toLockout || (d.classA && s.fault.lockout.isSome) || decide (s.conn.state = .lockout) then .lockout
      else .tripped) (by split <;> simp) (by simp) (by simp [State.openSwitches])
  split
  · exact h
  · exact h

/-- The state that the trip procedure leads to (R139 to R141). -/
theorem State.tripCore_state (d : TripCause) (s : State) :
    (s.tripCore d).conn.state = if d.toLockout || (d.classA && s.fault.lockout.isSome)
      || decide (s.conn.state = .lockout) then .lockout else .tripped := by
  unfold State.tripCore
  dsimp only
  split <;> simp [State.takeBusTrip]

/-- Postponed over-current action leaves a tripped station tripped. -/
theorem State.postponedOverCurrent_hasTripped {src : Source} {s : State} (h : s.HasTripped) :
    (s.postponedOverCurrent src).HasTripped := by
  unfold State.postponedOverCurrent
  dsimp only
  split
  · exact State.tripCore_hasTripped _ _
  · exact h

/-- The removal of the closing hold leaves a tripped station tripped. -/
theorem State.liftClosingHold_hasTripped {s : State} (h : s.HasTripped) : s.liftClosingHold.HasTripped := by
  unfold State.liftClosingHold
  split
  · exact State.postponedOverCurrent_hasTripped (State.postponedOverCurrent_hasTripped h)
  · exact h

/-- A trip leaves the station tripped. -/
theorem State.takeTrip_hasTripped (d : TripCause) (s : State) : (s.takeTrip d).HasTripped := by
  unfold State.takeTrip
  split
  · exact State.liftClosingHold_hasTripped (State.tripCore_hasTripped d s)
  · exact State.tripCore_hasTripped d s

/-- The action of a trip source and of DUP_ID is a trip. -/
theorem State.takeAction_hasTripped (src : Source) (value : Half) (reported : Scope) (s : State)
    (h : src.isPath = false) : (s.takeAction src value reported).HasTripped := by
  unfold State.takeAction
  cases src <;> first | exact State.takeTrip_hasTripped _ _ | simp [Source.isPath] at h

/-- With no over-current source HELD the removal of the closing hold does nothing else. -/
theorem State.liftClosingHold_of_not_held (s : State) (h1 : s.fault.register.ocDsg.state ≠ .held)
    (h2 : s.fault.register.ocChg.state ≠ .held) :
    s.liftClosingHold = { s with fault := { s.fault with closingHold := false } } := by
  unfold State.liftClosingHold State.postponedOverCurrent
  split
  · simp [FaultRegister.get, h1, h2]
  · next h =>
    have : s.fault.closingHold = false := by simpa using h
    rw [← this]

/-! ## What the shared operations write in the fault register -/

@[simp] theorem State.cancelSleep_register (s : State) : s.cancelSleep.fault = s.fault := by
  unfold State.cancelSleep; split <;> simp

/-- The trip procedure writes no source record. -/
@[simp] theorem State.tripCore_register (d : TripCause) (s : State) :
    (s.tripCore d).fault.register = s.fault.register := by
  unfold State.tripCore
  dsimp only
  split <;> simp [State.takeBusTrip, State.recordTrip]

/-- Postponed over-current action writes only the record of its source, and that one only where it is HELD. -/
theorem State.postponedOverCurrent_register (src other : Source) (s : State)
    (h : other ≠ src ∨ (s.fault.register.get src).state ≠ .held) :
    (s.postponedOverCurrent src).fault.register.get other = s.fault.register.get other := by
  unfold State.postponedOverCurrent
  dsimp only
  split
  · next hh =>
    rcases h with h | h
    · simp [FaultRegister.get_set_of_ne _ _ _ _ h]
    · exact absurd hh.1 h
  · rfl

/-- The removal of the closing hold writes only over-current records that are HELD. -/
theorem State.liftClosingHold_register (other : Source) (s : State) (h : (s.fault.register.get other).state ≠ .held) :
    s.liftClosingHold.fault.register.get other = s.fault.register.get other := by
  unfold State.liftClosingHold
  split
  · have h1 : (({ s with fault := { s.fault with closingHold := false } } : State).postponedOverCurrent .ocDsg).fault.register.get
        other = s.fault.register.get other := by
      rw [State.postponedOverCurrent_register]
      by_cases ho : other = .ocDsg
      · subst ho; exact Or.inr h
      · exact Or.inl ho
    rw [State.postponedOverCurrent_register]
    · exact h1
    · by_cases ho : other = .ocChg
      · subst ho; right; rw [h1]; exact h
      · exact Or.inl ho
  · rfl

/-- A trip writes no source record but those that the removal of the closing hold releases. -/
theorem State.takeTrip_register (d : TripCause) (other : Source) (s : State)
    (h : (s.fault.register.get other).state ≠ .held) :
    (s.takeTrip d).fault.register.get other = s.fault.register.get other := by
  unfold State.takeTrip
  split
  · rw [State.liftClosingHold_register _ _ (by simpa using h)]; simp
  · simp

@[simp] theorem State.followPathSources_fault (s : State) : s.followPathSources.fault = s.fault := by simp

/-- The action of a source writes no source record but those that the removal of the closing hold releases. -/
theorem State.takeAction_register (src : Source) (value : Half) (reported : Scope) (other : Source) (s : State)
    (h : (s.fault.register.get other).state ≠ .held) :
    (s.takeAction src value reported).fault.register.get other = s.fault.register.get other := by
  unfold State.takeAction
  cases src <;> first
    | exact State.takeTrip_register _ _ _ h
    | (dsimp only; split
       · exact State.takeTrip_register _ _ _ h
       · simp)

/-! ## What the operations of claim and connection leave alone -/

/-- A STATUS handed over leaves a held TRIP alone. -/
@[simp] theorem State.handStatus_heldTrip (s : State) : s.handStatus.mbi.heldTrip = s.mbi.heldTrip := by
  unfold State.handStatus State.queueFrame
  split <;> simp

@[simp] theorem State.changeConn_heldTrip (new : ConnState) (path : Path) (s : State) :
    (s.changeConn new path).mbi.heldTrip = s.mbi.heldTrip := by
  unfold State.changeConn
  split <;> simp

theorem TouchesConnectionOnly.refl (s : State) : TouchesConnectionOnly s s := rfl

theorem TouchesConnectionOnly.trans {s u w : State} (h1 : TouchesConnectionOnly s u)
    (h2 : TouchesConnectionOnly u w) : TouchesConnectionOnly s w := by
  simp only [TouchesConnectionOnly, State.ext_iff, Mbi.ext_iff, Closure.ext_iff, Conn.ext_iff, FaultUnit.ext_iff,
    Port.ext_iff] at h1 h2 ⊢
  simp_all

theorem KeepsSurroundings.refl (s : State) : KeepsSurroundings s s := rfl

theorem KeepsSurroundings.trans {s u w : State} (h1 : KeepsSurroundings s u) (h2 : KeepsSurroundings u w) :
    KeepsSurroundings s w := by
  simp only [KeepsSurroundings, State.ext_iff, Mbi.ext_iff, Closure.ext_iff, Conn.ext_iff, FaultUnit.ext_iff,
    Port.ext_iff] at h1 h2 ⊢
  simp_all

theorem TouchesConnectionOnly.keeps {s u : State} (h : TouchesConnectionOnly s u) : KeepsSurroundings s u := by
  simp only [TouchesConnectionOnly, KeepsSurroundings, State.ext_iff, Mbi.ext_iff, Closure.ext_iff, Conn.ext_iff,
    FaultUnit.ext_iff, Port.ext_iff] at h ⊢
  simp_all

theorem State.setEvent_touches (e : Event) (s : State) : TouchesConnectionOnly s (s.setEvent e) := rfl

theorem State.endClaim_touches (o : ClaimOutcome) (s : State) : TouchesConnectionOnly s (s.endClaim o) := rfl

theorem State.startHoldOff_touches (s : State) : TouchesConnectionOnly s s.startHoldOff := rfl

theorem State.openSwitches_touches (s : State) : TouchesConnectionOnly s s.openSwitches := rfl

theorem State.handStatus_touches (s : State) : TouchesConnectionOnly s s.handStatus := by
  simp only [TouchesConnectionOnly, State.ext_iff, Mbi.ext_iff, Closure.ext_iff, Conn.ext_iff, FaultUnit.ext_iff,
    Port.ext_iff]
  simp

theorem State.changeConn_touches (new : ConnState) (path : Path) (s : State) :
    TouchesConnectionOnly s (s.changeConn new path) := by
  unfold State.changeConn
  split
  · rfl
  · refine TouchesConnectionOnly.trans ?_ (State.handStatus_touches _)
    rfl

/-- A frame that is not a TRIP touches the list and the held STATUS only. -/
theorem State.queueFrame_touches (f : Frame) (s : State) (h : f.kind ≠ .trip) :
    TouchesConnectionOnly s (s.queueFrame f) := by
  cases f <;> simp [Frame.kind] at h
  all_goals
    unfold State.queueFrame
    split
    · rfl
    · first
        | rfl
        | (dsimp only; split <;> rfl)
        | (simp only [TouchesConnectionOnly, State.ext_iff, Mbi.ext_iff]; simp)

theorem State.queueAbandon_touches (r : AbandonReason) (s : State) : TouchesConnectionOnly s (s.queueAbandon r) :=
  State.queueFrame_touches _ _ (by simp [Frame.kind])

theorem State.withdrawClaim_touches (w : Withdrawal) (s : State) : TouchesConnectionOnly s (s.withdrawClaim w) := by
  unfold State.withdrawClaim
  split <;> rfl

theorem State.failClaim_touches (o : ClaimOutcome) (s : State) : TouchesConnectionOnly s (s.failClaim o) :=
  TouchesConnectionOnly.trans (u := (((s.endClaim o).startHoldOff).setEvent .claimAbandoned)) rfl
    (State.changeConn_touches _ _ _)

theorem State.abortClaim_touches (o : ClaimOutcome) (s : State) : TouchesConnectionOnly s (s.abortClaim o) := by
  unfold State.abortClaim
  split
  · rfl
  · split
    · exact TouchesConnectionOnly.trans (State.withdrawClaim_touches _ _) (State.endClaim_touches _ _)
    · rfl

theorem State.enterClosing_touches (s : State) : TouchesConnectionOnly s s.enterClosing := by
  refine TouchesConnectionOnly.trans ?_ (State.changeConn_touches _ _ _)
  rfl

theorem State.windowTest_touches (s : State) : TouchesConnectionOnly s s.windowTest := by
  unfold State.windowTest
  dsimp only
  split
  · split
    · exact TouchesConnectionOnly.trans (State.endClaim_touches _ _) (State.enterClosing_touches _)
    · exact TouchesConnectionOnly.trans (State.queueAbandon_touches _ _) (State.failClaim_touches _ _)
  · exact TouchesConnectionOnly.trans (State.queueAbandon_touches _ _) (State.failClaim_touches _ _)

/-! ## Claims that fail, and the window test -/

/-- A claim that fails with hold-off from CLAIMING, or from any state but ISOLATED. -/
theorem State.failClaim_failed (o : ClaimOutcome) (s : State) (h : s.conn.state ≠ .isolated) :
    (s.failClaim o).ClaimFailed o := by
  unfold State.failClaim
  refine ⟨by simp [State.endClaim], by simp [State.endClaim], ?_, ?_, State.changeConn_entered _ _ _ (by simpa using h)⟩
  · simp [State.startHoldOff, holdOffMs]
  · exact State.changeConn_hasEvent _ _ _ _ (State.hasEvent_setEvent_self _ _)

/-- A frame pending before a change of connection state is pending after it, unless it is a STATUS. -/
theorem State.changeConn_pends (new : ConnState) (path : Path) (s : State) (f : Frame) (h : f.kind ≠ .status)
    (hf : s.Pends f) : (s.changeConn new path).Pends f := by
  unfold State.changeConn
  split
  · exact hf
  · exact State.handStatus_pends _ _ h hf

/-- A frame handed over before a change of connection state, in one. -/
theorem State.changeConn_handed (new : ConnState) (path : Path) (s : State) (f : Frame) (h : f.kind ≠ .status)
    (hf : s.Handed f) : (s.changeConn new path).Handed f := by
  intro hb
  exact State.changeConn_pends _ _ _ _ h (hf (by simpa using hb))

/-- A frame handed over stays so while a claim fails. -/
theorem State.failClaim_handed (o : ClaimOutcome) (s : State) (f : Frame) (h : f.kind ≠ .status) (hf : s.Handed f) :
    (s.failClaim o).Handed f :=
  State.changeConn_handed _ _ _ _ h hf

/-- The own record is gone after a claim fails in CLAIMING (R44). -/
theorem State.failClaim_record (o : ClaimOutcome) (s : State) (h : s.conn.state = .claiming) (r : ClosureRecord)
    (hr : s.closure.record = some r) (ho : r.holder = s.ownId) : (s.failClaim o).closure.record = none := by
  unfold State.failClaim
  rw [State.changeConn_record _ _ _ (by simp [h])]
  simp [State.recordAfter, h, State.ownRecord, State.endClaim, State.startHoldOff, State.setEvent, hr, ho]

/-- The closure window on a sample, as arithmetic (R54). -/
theorem Sample.withinWindow_iff (x : Sample) (c : ConfigRecord) :
    x.withinWindow c = true ↔ x.vbus.toNat < 5 * fieldNat c.deadBus
      ∨ ((x.vmod.toNat : Int) - x.vbus.toNat).natAbs ≤ 5 * fieldNat c.window := by
  have h1 : (x.busLive c = false) ↔ x.vbus.toNat < 5 * fieldNat c.deadBus := by
    simp [Sample.busLive, ConfigRecord.deadBusCount, Nat.mul_comm]
  have h2 : voltageGap x.vmod x.vbus ≤ c.windowCount
      ↔ ((x.vmod.toNat : Int) - x.vbus.toNat).natAbs ≤ 5 * fieldNat c.window := by
    simp only [voltageGap, ConfigRecord.windowCount]; omega
  rw [← h1, ← h2]
  simp [Sample.withinWindow]

/-- The closure window test as the outcome that the statements name (R54). -/
theorem State.windowTest_closesOrAbandons (x : Sample) (s : State) (hx : s.meas.sample = some x)
    (h : s.conn.state = .claiming) : ClosesOrAbandons x s s.windowTest := by
  refine ⟨State.windowTest_touches s, ?_⟩
  have hw := Sample.withinWindow_iff x s.config
  split
  · next hp =>
    have e : s.windowTest = (s.endClaim .succeeded).enterClosing := by
      simp [State.windowTest, hx, hw.2 hp]
    rw [e]
    unfold State.enterClosing
    refine ⟨State.changeConn_entered _ _ _ (by simp [h]), ?_, ?_, ?_, ?_, ?_⟩
    · apply Closure.ext <;> simp [State.endClaim]
      rw [State.changeConn_record _ _ _ (by simp [h])]
      simp [State.recordAfter]
    · simp
    · unfold State.changeConn
      rw [if_neg (by simp [h])]
      simp
    · unfold State.changeConn
      rw [if_neg (by simp [h])]
      simp [State.pathSwitches, State.isActive, FaultRegister.get]
    · unfold State.changeConn
      rw [if_neg (by simp [h])]
      simp [State.pathSwitches, State.isActive, FaultRegister.get]
  · next hp =>
    have e : s.windowTest = (s.queueAbandon .window).failClaim .window := by
      have : x.withinWindow s.config = false := by rw [← Bool.not_eq_true, hw]; exact hp
      simp [State.windowTest, hx, this]
    rw [e]
    refine ⟨State.failClaim_failed _ _ (by simp [h]), ?_, by simp, ?_⟩
    · exact State.failClaim_handed _ _ _ (by simp [Frame.kind])
        (State.queueFrame_handed _ _ (by simp [Frame.kind, FrameKind.isOwnConnection]))
    · intro r hr ho
      exact State.failClaim_record _ _ (by simpa using h) r (by simpa using hr) (by simpa using ho)

end Sys2Proof.Machine
end

