-- ==== Sys2Proof/Laws/Claims.lean ====
section
/-! SUPPORT. Where claims come from and what ends them: no shared operation but the beginning of a claim (R48) brings one, and what the reports of a sample do to a claim that has just begun. -/

namespace Sys2Proof.Machine

/-! ## No claim where there was none -/

theorem State.takeTrip_claim (d : TripCause) (s : State) : (s.takeTrip d).closure.claim = none :=
  (State.takeTrip_hasTripped d s).2.2.1

theorem State.takeAction_noClaim (src : Source) (value : Half) (reported : Scope) {s : State}
    (h : s.closure.claim = none) : (s.takeAction src value reported).closure.claim = none := by
  unfold State.takeAction
  cases src <;> dsimp only <;> first
    | exact State.takeTrip_claim _ _
    | (split <;> first | exact State.takeTrip_claim _ _ | simpa using h)

theorem State.takeOnset_noClaim (src : Source) (value : Half) (reported : Scope) {s : State}
    (h : s.closure.claim = none) : (s.takeOnset src value reported).closure.claim = none := by
  unfold State.takeOnset
  dsimp only
  (repeat' split) <;> first
    | (apply State.takeAction_noClaim; simpa using h)
    | simpa using h

theorem State.takeClearance_noClaim (src : Source) {s : State} (h : s.closure.claim = none) :
    (s.takeClearance src).closure.claim = none := by
  simpa using h

theorem State.takeOnsets_noClaim (x : Sample) (l : List Source) {s : State} (h : s.closure.claim = none) :
    (s.takeOnsets x l).closure.claim = none := by
  induction l generalizing s with
  | nil => exact h
  | cons src rest ih => exact ih (State.takeOnset_noClaim _ _ _ h)

theorem State.judgeSample_noClaim (x : Sample) {s : State} (h : s.closure.claim = none) :
    (s.judgeSample x).closure.claim = none := by
  unfold State.judgeSample
  split
  · exact State.takeOnsets_noClaim _ _ (by simpa using h)
  · exact h

theorem State.judgeShort_noClaim (current : Nat) {s : State} (h : s.closure.claim = none) :
    (s.judgeShort current).closure.claim = none := by
  unfold State.judgeShort
  split
  · exact State.takeOnset_noClaim _ _ _ h
  · exact h

theorem State.takeStanding_noClaim (src : Source) (value : Half) {s : State} (h : s.closure.claim = none) :
    (s.takeStanding src value).closure.claim = none := by
  unfold State.takeStanding
  split
  · exact State.takeOnset_noClaim _ _ _ h
  · exact h

theorem State.postponed_noClaim (src : Source) {s : State} (h : s.closure.claim = none) :
    (s.postponed src).closure.claim = none := by
  unfold State.postponed
  dsimp only
  split
  · exact State.takeAction_noClaim _ _ _ (by simpa using h)
  · exact h

theorem State.postponedAll_noClaim (l : List Source) {s : State} (h : s.closure.claim = none) :
    (s.postponedAll l).closure.claim = none := by
  induction l generalizing s with
  | nil => exact h
  | cons src rest ih => exact ih (State.postponed_noClaim _ h)

theorem State.postponedOverCurrent_noClaim (src : Source) {s : State} (h : s.closure.claim = none) :
    (s.postponedOverCurrent src).closure.claim = none := by
  unfold State.postponedOverCurrent
  dsimp only
  split
  · exact (State.tripCore_hasTripped _ _).2.2.1
  · exact h

theorem State.liftClosingHold_noClaim {s : State} (h : s.closure.claim = none) :
    s.liftClosingHold.closure.claim = none := by
  unfold State.liftClosingHold
  split
  · exact State.postponedOverCurrent_noClaim _ (State.postponedOverCurrent_noClaim _ h)
  · exact h

theorem State.followBusTrip_noClaim {s : State} (h : s.closure.claim = none) :
    s.followBusTrip.closure.claim = none := by
  unfold State.followBusTrip
  dsimp only
  split
  · simp
  · exact State.liftClosingHold_noClaim (by simpa [State.takeBusTrip] using h)
  all_goals simpa [State.takeBusTrip] using h

theorem State.failClaim_claim (o : ClaimOutcome) (s : State) : (s.failClaim o).closure.claim = none := by
  simp [State.failClaim, State.endClaim]

theorem State.claimMeetsSilence_claim (s : State) : s.claimMeetsSilence.closure.claim = none := by
  unfold State.claimMeetsSilence
  split
  · assumption
  · split <;> exact State.failClaim_claim _ _

theorem State.enterSilent_claim (race : Race) (s : State) : (s.enterSilent race).closure.claim = none := by
  unfold State.enterSilent
  dsimp only
  split
  · split
    · rfl
    · exact State.takeOnset_noClaim _ _ _ (State.claimMeetsSilence_claim _)
  · exact State.claimMeetsSilence_claim _

theorem State.duplicateId_claim (s : State) : s.duplicateId.closure.claim = none := by
  unfold State.duplicateId
  dsimp only
  split
  · exact State.takeOnset_noClaim _ _ _ (State.claimMeetsSilence_claim _)
  · exact State.claimMeetsSilence_claim _

/-! ## The reports of a sample and a claim that has just begun -/

/-- From `s` to `u` a claim either has ended or stands as it stood: connection state, Closure Engine, sleep-pending flag and
the own-connection frames of the list are the same. -/
def ClaimEndsOrStands (s u : State) : Prop :=
  u.closure.claim = none
    ∨ (u.conn.state = s.conn.state ∧ u.closure = s.closure ∧ u.conn.sleepPending = s.conn.sleepPending
        ∧ (u.mbi.list.filter fun f => f.frame.kind.isOwnConnection)
          = s.mbi.list.filter fun f => f.frame.kind.isOwnConnection)

theorem ClaimEndsOrStands.refl (s : State) : ClaimEndsOrStands s s := Or.inr ⟨rfl, rfl, rfl, rfl⟩

/-- A frame that is no own-connection frame joins the list beside the own-connection frames. -/
theorem filter_insertFrame (f : TxFrame) (l : List TxFrame) (h : f.frame.kind.isOwnConnection = false) :
    (insertFrame f l).filter (fun g => g.frame.kind.isOwnConnection)
      = l.filter fun g => g.frame.kind.isOwnConnection := by
  induction l with
  | nil => simp [insertFrame, h]
  | cons x xs ih =>
    unfold insertFrame
    split
    · simp [List.filter_cons, h]
    · simp [List.filter_cons, ih]

theorem filter_replaceStatus (p : StatusPayload) (l : List TxFrame) :
    (l.map (replaceStatus p)).filter (fun g => g.frame.kind.isOwnConnection)
      = l.filter fun g => g.frame.kind.isOwnConnection := by
  induction l with
  | nil => rfl
  | cons x xs ih =>
    by_cases hk : x.frame.kind = .status
    · have hs : FrameKind.status.isOwnConnection = false := rfl
      simp [ih, hk, hs]
    · simp [List.filter_cons, ih, replaceStatus_of_ne p x hk]

/-- A STATUS handed over leaves the own-connection frames of the list alone (R13). -/
theorem State.handStatus_ownConnection (s : State) :
    (s.handStatus.mbi.list.filter fun f => f.frame.kind.isOwnConnection)
      = s.mbi.list.filter fun f => f.frame.kind.isOwnConnection := by
  unfold State.handStatus State.queueFrame
  split
  · rfl
  · dsimp only [Mbi.handStatus, Mbi.putStatus, Mbi.join]
    (repeat' split)
    · rfl
    · exact filter_replaceStatus _ _
    · exact filter_insertFrame _ _ rfl

theorem State.setSource_ownConnection (src : Source) (x : SourceRecord) (s : State) :
    ((s.setSource src x).mbi.list.filter fun f => f.frame.kind.isOwnConnection)
      = s.mbi.list.filter fun f => f.frame.kind.isOwnConnection := by
  unfold State.setSource
  dsimp only
  split
  · exact State.handStatus_ownConnection _
  · rfl

theorem State.setSource_stands (src : Source) (x : SourceRecord) (s : State) :
    ClaimEndsOrStands s (s.setSource src x) :=
  Or.inr ⟨by simp, by simp, by simp, State.setSource_ownConnection src x s⟩

/-- The action of a source that has become ACTIVE ends a claim, or in CLAIMING touches nothing (R59, R82). -/
theorem State.takeAction_stands (src : Source) (value : Half) (reported : Scope) {s : State}
    (h : s.conn.state = .claiming) : ClaimEndsOrStands s (s.takeAction src value reported) := by
  have hf : s.followPathSources = s := by simp [State.followPathSources, h]
  unfold State.takeAction
  cases src <;> dsimp only <;> first
    | exact Or.inl (State.takeTrip_claim _ _)
    | (split
       · exact Or.inl (State.takeTrip_claim _ _)
       · rw [hf]; exact ClaimEndsOrStands.refl s)

theorem ClaimEndsOrStands.trans {s u w : State} (h1 : ClaimEndsOrStands s u) (h2 : ClaimEndsOrStands u w)
    (hnew : u.closure.claim = none → w.closure.claim = none) : ClaimEndsOrStands s w := by
  rcases h1 with h1 | ⟨a1, a2, a3, a4⟩
  · exact Or.inl (hnew h1)
  · rcases h2 with h2 | ⟨b1, b2, b3, b4⟩
    · exact Or.inl h2
    · exact Or.inr ⟨b1.trans a1, b2.trans a2, b3.trans a3, b4.trans a4⟩

/-- An onset ends the claim of a CLAIMING station or leaves it as it stands. -/
theorem State.takeOnset_stands (src : Source) (value : Half) (reported : Scope) {s : State}
    (h : s.conn.state = .claiming) (hp : s.conn.sleepPending = false) :
    ClaimEndsOrStands s (s.takeOnset src value reported) := by
  have hcancel : ∀ x, (s.setSource src x).cancelSleep = s.setSource src x := by
    intro x
    simp [State.cancelSleep, hp]
  have hset := fun x => State.setSource_stands src x s
  have hact : ∀ x, ClaimEndsOrStands s ((s.setSource src x).takeAction src value reported) := fun x =>
    (hset x).trans (State.takeAction_stands src value reported (by simpa using h))
      (State.takeAction_noClaim src value reported)
  have hevent : ∀ (e : Event) (u : State), ClaimEndsOrStands s u → ClaimEndsOrStands s (u.setEvent e) :=
    fun _ _ hu => hu
  unfold State.takeOnset
  dsimp only
  split
  · split
    · split
      · exact hevent _ _ (hset _)
      · rw [hcancel]; exact hact _
    · split
      · exact hevent _ _ (hset _)
      · rw [hcancel]; exact hact _
    · split
      · exact hact _
      · exact hset _
    · exact hset _
  · exact hset _

theorem State.takeClearance_stands (src : Source) {s : State} (h : s.conn.state = .claiming) :
    ClaimEndsOrStands s (s.takeClearance src) := by
  have hset := fun x => State.setSource_stands src x s
  have hfollow : ∀ x, (s.setSource src x).followPathSources = s.setSource src x := by
    intro x
    simp [State.followPathSources, h]
  unfold State.takeClearance
  dsimp only
  (repeat' split) <;> first
    | exact hset _
    | (rw [hfollow]; exact hset _)

theorem State.takeOnsets_stands (x : Sample) (l : List Source) {s : State} (h : s.conn.state = .claiming)
    (hp : s.conn.sleepPending = false) : ClaimEndsOrStands s (s.takeOnsets x l) := by
  induction l generalizing s with
  | nil => exact ClaimEndsOrStands.refl s
  | cons src rest ih =>
    rcases State.takeOnset_stands src (x.measured src) .localOnly h hp with hn | ⟨h1, h2, h3, h4⟩
    · exact Or.inl (State.takeOnsets_noClaim x rest hn)
    · exact ClaimEndsOrStands.trans (Or.inr ⟨h1, h2, h3, h4⟩) (ih (h1.trans h) (h3.trans hp))
        (State.takeOnsets_noClaim x rest)

theorem State.takeClearances_stands (l : List Source) {s : State} (h : s.conn.state = .claiming) :
    ClaimEndsOrStands s (s.takeClearances l) := by
  induction l generalizing s with
  | nil => exact ClaimEndsOrStands.refl s
  | cons src rest ih =>
    refine ClaimEndsOrStands.trans (State.takeClearance_stands src h) (ih (by simpa using h)) ?_
    intro hn
    simpa using hn

/-- The reports of a sample end the claim of a CLAIMING station or leave it as it stands (R97, R114). -/
theorem State.judgeSample_stands (x : Sample) {s : State} (h : s.conn.state = .claiming)
    (hp : s.conn.sleepPending = false) : ClaimEndsOrStands s (s.judgeSample x) := by
  unfold State.judgeSample
  split
  · dsimp only
    have hc := State.takeClearances_stands (s.det.cleared (s.det.judge s.config x))
      (s := { s with det := s.det.judge s.config x }) h
    refine ClaimEndsOrStands.trans (u := ({ s with det := s.det.judge s.config x } : State).takeClearances _) hc ?_
      (State.takeOnsets_noClaim x _)
    refine State.takeOnsets_stands x _ (by simpa using h) (by simpa using hp)
  · exact ClaimEndsOrStands.refl s

end Sys2Proof.Machine
end

