-- ==== Sys2Proof/Laws/Due.lean ====
section
/-! SUPPORT. What has come due (R5, R16, R31, R32, R153): the rows that a list of candidates holds, one lemma for each of its parts. -/

namespace Sys2Proof.Machine

theorem mem_dueAt (timer : Option Nat) (c d : Instr) : d ∈ dueAt timer c ↔ d = c ∧ timer = some 0 := by
  unfold dueAt
  split <;> simp [*]

/-- The model's limits are those of the table of R31. -/
theorem RosterEntry.staleLimit_eq (e : RosterEntry) : staleLimitMs e.periodMs = e.staleLimit := by
  unfold RosterEntry.staleLimit RosterEntry.periodMs staleLimitMs statusPeriodMs
  cases e.status with
  | none => rfl
  | some p =>
    have h : p.period.toNat < 4 := p.period.isLt
    simp only [Option.map_some]
    generalize p.period.toNat = n at h
    match n, h with
    | 0, _ | 1, _ | 2, _ | 3, _ => rfl

theorem RosterEntry.emptyLimit_eq (e : RosterEntry) : emptyLimitMs e.periodMs = e.emptyLimit := by
  unfold RosterEntry.emptyLimit RosterEntry.periodMs emptyLimitMs statusPeriodMs
  cases e.status with
  | none => rfl
  | some p =>
    have h : p.period.toNat < 4 := p.period.isLt
    simp only [Option.map_some]
    generalize p.period.toNat = n at h
    match n, h with
    | 0, _ | 1, _ | 2, _ | 3, _ => rfl

/-- The rows of the roster entries at their limits (R31, R32). -/
theorem mem_rosterDue (r : List RosterSlot) (c : Instr) :
    c ∈ rosterDue r ↔ ∃ x ∈ r,
      (c = .rosterStaleLimit x.id ∧ x.entry.state = .present ∧ x.entry.staleLimit ≤ x.entry.age)
      ∨ (c = .rosterEmptyLimit x.id ∧ x.entry.state = .stale ∧ x.entry.emptyLimit ≤ x.entry.age) := by
  unfold rosterDue
  rw [List.mem_flatMap]
  refine exists_congr fun x => and_congr_right fun _ => ?_
  rw [RosterEntry.staleLimit_eq, RosterEntry.emptyLimit_eq]
  cases x.entry.state <;> simp only [reduceCtorEq, false_and, and_false, or_false, false_or, true_and] <;> try split
  all_goals simp_all

theorem Closure.claimTimer_zero (c : Closure) :
    c.claimTimer = some 0 ↔ ∃ v ids, c.claim = some ⟨v, .awaiting ids 0⟩ := by
  unfold Closure.claimTimer
  rcases c.claim with _ | ⟨v, _ | ⟨ids, n⟩⟩ <;> simp

/-- The rows of the timers at 0 and of the roster in RUN. -/
theorem State.mem_dueInRun (s : State) (c : Instr) :
    c ∈ s.dueInRun ↔
      (c = .recordExpiry ∧ ∃ r, s.closure.record = some r ∧ r.expiry = some 0)
      ∨ (c = .claimTimerExpiry ∧ ∃ v ids, s.closure.claim = some ⟨v, .awaiting ids 0⟩)
      ∨ (c = .holdOffExpiry ∧ s.closure.holdOff = some 0)
      ∨ (c = .quietPeriodExpiry ∧ s.closure.quiet = some 0)
      ∨ (c = .settleEnd ∧ s.conn.settle = some 0)
      ∨ (c = .releaseTimerExpiry ∧ s.conn.release = some 0)
      ∨ (c = .statusTimerExpiry ∧ s.conn.statusTimer = some 0)
      ∨ (c = .lockoutWindowExpiry ∧ s.fault.lockout = some 0)
      ∨ (c = .silenceTimerExpiry ∧ s.mbi.silenceTimer = some 0)
      ∨ c ∈ rosterDue s.roster := by
  unfold State.dueInRun
  simp only [List.mem_append, mem_dueAt, Closure.claimTimer_zero, Option.bind_eq_some_iff, or_assoc]

theorem State.sleepDue_iff (s : State) (h : s.power.phase = .run) : s.sleepDue = true ↔ s.SleepStands := by
  simp [State.sleepDue, State.SleepStands, h, and_assoc]

/-- Nothing follows at once where no attempt has collided, no sleep can be entered and SILENT is not served. -/
theorem State.dueAtOnce_none_iff (s : State) (h : s.power.phase = .run) :
    s.dueAtOnce = none ↔ (∀ k, s.mbi.tx ≠ .collided k) ∧ ¬ s.SleepStands ∧ ¬ s.SilenceServed := by
  unfold State.dueAtOnce
  rw [← State.sleepDue_iff s h]
  cases s.mbi.tx <;> simp only [reduceCtorEq, ne_eq, not_false_eq_true, implies_true, true_and]
  case collided k => simp
  all_goals
    cases s.sleepDue <;> simp [State.SilenceServed]

/-- With nothing at once the candidates of RUN are the rows that timers have made due. -/
theorem State.candidates_run (s : State) (h : s.power.phase = .run) (h1 : s.dueAtOnce = none) :
    s.candidates = s.dueInRun := by
  unfold State.candidates
  rw [h, h1]
  simp [State.due, h]

/-- In a roster without double ids an id's entry is the one of its slot. -/
theorem rosterGet_eq_some_iff (id : StationId) (e : RosterEntry) (r : List RosterSlot) (h : (r.map (·.id)).Nodup) :
    rosterGet id r = some e ↔ (⟨id, e⟩ : RosterSlot) ∈ r := by
  induction r with
  | nil => simp [rosterGet]
  | cons x xs ih =>
    obtain ⟨h1, h2⟩ := List.nodup_cons.1 h
    unfold rosterGet
    by_cases hx : x.id = id
    · rw [if_pos hx]
      constructor
      · intro he
        have : x = ⟨id, e⟩ := by rw [← hx, ← Option.some.inj he]
        rw [this]
        exact List.mem_cons_self
      · intro he
        rcases List.mem_cons.1 he with he | he
        · rw [← he]
        · exact absurd (List.mem_map.2 ⟨_, he, hx.symm⟩) h1
    · rw [if_neg hx, ih h2]
      refine ⟨List.mem_cons_of_mem _, fun he => ?_⟩
      rcases List.mem_cons.1 he with he | he
      · exact absurd (by rw [← he]) hx
      · exact he

end Sys2Proof.Machine
end

