-- ==== Sys2Proof/Laws/Layouts.lean ====
section
/-! SUPPORT. The bytes that the reads return are those of the layouts in Safety.lean: one lemma per field shape and one per response (R194, R195). -/

namespace Sys2Proof.Machine

/-! ## Fields -/

theorem natBytes16_eq (n : Nat) : natBytes16 n = twoBytes n := by
  simp only [natBytes16, bytes16, hiByte, loByte, twoBytes, List.cons.injEq, and_true]
  constructor <;> apply BitVec.eq_of_toNat_eq <;>
    simp only [BitVec.extractLsb'_toNat, BitVec.toNat_ofNat, Nat.shiftRight_eq_div_pow] <;> omega

theorem bytes16_eq (h : Half) : bytes16 h = twoBytes h.toNat := by
  rw [← natBytes16_eq, natBytes16, BitVec.ofNat_toNat, BitVec.setWidth_eq]

theorem natBytes32_eq (n : Nat) : natBytes32 n = fourBytes n := by
  simp only [natBytes32, bytes32, fourBytes, List.cons.injEq, and_true]
  refine ⟨?_, ?_, ?_, ?_⟩ <;> apply BitVec.eq_of_toNat_eq <;>
    simp only [BitVec.extractLsb'_toNat, BitVec.toNat_ofNat, Nat.shiftRight_eq_div_pow] <;> omega

theorem bytes32_eq (w : BitVec 32) : bytes32 w = fourBytes w.toNat := by
  rw [← natBytes32_eq, natBytes32, BitVec.ofNat_toNat, BitVec.setWidth_eq]

theorem twoBytes_setWidth (v : BitVec n) (h : n ≤ 16) : bytes16 (v.setWidth 16) = twoBytes v.toNat := by
  rw [bytes16_eq, BitVec.toNat_setWidth, Nat.mod_eq_of_lt]
  exact Nat.lt_of_lt_of_le v.isLt (Nat.pow_le_pow_right (by decide) h)

theorem flagBit_packed (b : Bool) (n : Nat) : flagBit b n = packed [(b.toNat, n)] := by
  cases b
  · simp [flagBit, packed]
  · apply BitVec.eq_of_toNat_eq
    simp [flagBit, packed, Nat.shiftLeft_eq]

theorem State.level_eq (s : State) : s.level = BitVec.ofNat 8 s.levelNumber := by
  unfold State.level State.levelNumber ConfigRecord.capacityAs
  split <;> simp [Nat.mul_comm]

/-! ## Responses -/

/-- STATUS_READ (R195). -/
theorem State.statusBytes_eq (s : State) : s.statusBytes = s.statusLayout := by
  have h0 : ∀ (c : ConnState) (p : Path) (a b d : Bool),
      (c.code ++ p.code ++ BitVec.ofBool a ++ BitVec.ofBool b ++ BitVec.ofBool d : Byte)
        = packed [(c.number, 5), (p.number, 3), (a.toNat, 2), (b.toNat, 1), (d.toNat, 0)] := by
    intro c p a b d
    cases c <;> cases p <;> cases a <;> cases b <;> cases d <;> rfl
  have h1 : ∀ (a : Bool) (bus : BusState) (b c d e f : Bool),
      (BitVec.ofBool a ++ (if bus = .off then (if c then BusState.silent else if a then .active else .listen) else bus).code
        ++ BitVec.ofBool b ++ BitVec.ofBool c ++ BitVec.ofBool d ++ BitVec.ofBool e ++ BitVec.ofBool f : Byte)
        = packed [(a.toNat, 7), ((match bus with
            | .listen => 1 | .active => 2 | .silent => 3
            | .off => if c then 3 else if a then 2 else 1), 5), (b.toNat, 4), (c.toNat, 3), (d.toNat, 2), (e.toNat, 1),
            (f.toNat, 0)] := by
    intro a bus b c d e f
    cases a <;> cases bus <;> cases b <;> cases c <;> cases d <;> cases e <;> cases f <;> rfl
  have h2 : ∀ (k : CheckState) (a b c : Bool) (w : WakeSource) (d : Bool),
      (k.code ++ BitVec.ofBool a ++ BitVec.ofBool b ++ BitVec.ofBool c ++ w.code ++ BitVec.ofBool d : Byte)
        = packed [(k.number, 6), (a.toNat, 5), (b.toNat, 4), (c.toNat, 3), (w.number, 1), (d.toNat, 0)] := by
    intro k a b c w d
    cases k <;> cases a <;> cases b <;> cases c <;> cases w <;> cases d <;> rfl
  have h3 : s.fault.register.heldPresent = Source.all.any fun src =>
      decide ((s.fault.register.get src).state = .held ∨ (s.fault.register.get src).state = .lapsed) := by
    unfold FaultRegister.heldPresent
    congr 1
    funext src
    unfold SourceRecord.heldOrLapsed
    cases (s.fault.register.get src).state <;> rfl
  simp only [State.statusBytes, State.statusLayout, h0, State.shownBus, State.releasedBus, h1, h2, h3,
    flagBit_packed, State.level_eq, twoBytes_setWidth _ (show 14 ≤ 16 by decide), State.busNumber]
  all_goals rfl

/-- SAMPLE_READ (R195). -/
theorem State.sampleBytes_eq (s : State) : s.sampleBytes = s.sampleLayout := by
  unfold State.sampleBytes State.sampleLayout
  cases s.meas.sample with
  | none => rfl
  | some x => simp only [bytes16_eq, bytes32_eq]

/-- An entry in ROSTER_READ (R195). -/
theorem RosterEntry.bytes_eq (e : RosterEntry) : e.bytes = e.layout := by
  have h1 : ∀ a b c d f : Bool, (BitVec.ofBool a ++ BitVec.ofBool b ++ BitVec.ofBool c ++ BitVec.ofBool d
      ++ BitVec.ofBool f ++ 0#3 : Byte)
        = packed [(a.toNat, 7), (b.toNat, 6), (c.toNat, 5), (d.toNat, 4), (f.toNat, 3)] := by
    intro a b c d f
    cases a <;> cases b <;> cases c <;> cases d <;> cases f <;> rfl
  have h2 : ((e.announced.map ConnState.code).getD 0).setWidth 8
      = BitVec.ofNat 8 ((e.announced.map (·.number)).getD 0) := by
    cases e.announced with
    | none => rfl
    | some c => cases c <;> rfl
  have h3 : ∀ (p : Path) (d : BitVec 2), (0#3 ++ p.code ++ d ++ 0#1 : Byte) = packed [(p.number, 3), (d.toNat, 1)] := by
    intro p d
    have hd : ∀ d : BitVec 2, d = 0 ∨ d = 1 ∨ d = 2 ∨ d = 3 := by decide
    rcases hd d with rfl | rfl | rfl | rfl <;> cases p <;> rfl
  have h4 : e.state.code = match e.state with | .present => 1 | .stale => 2 | .asleep => 3 := by
    cases e.state <;> rfl
  simp only [RosterEntry.bytes, RosterEntry.layout, RosterEntry.partBytes, h1, h2, h4, natBytes16_eq, bytes16_eq]
  cases e.status with
  | none => rfl
  | some p =>
    simp only [h3]
    all_goals rfl

/-- ROSTER_READ (R195). -/
theorem State.rosterBytes_eq (id : StationId) (s : State) : s.rosterBytes id = s.rosterLayout id := by
  unfold State.rosterBytes State.rosterLayout
  split
  · rfl
  · split <;> simp_all [RosterEntry.bytes_eq]

/-- FAULT_READ (R195). -/
theorem State.faultBytes_eq (s : State) : s.faultBytes = s.faultLayout := by
  have h1 : ∀ x : SourceRecord, x.bytes = x.layout := by
    intro x
    have h : ∀ (st : SourceState) (a b : Bool), (st.code ++ BitVec.ofBool a ++ BitVec.ofBool b ++ 0#4 : Byte)
        = packed [(st.number, 6), (a.toNat, 5), (b.toNat, 4)] := by
      intro st a b
      cases st <;> cases a <;> cases b <;> rfl
    simp only [SourceRecord.bytes, SourceRecord.layout, h, bytes16_eq]
  simp only [State.faultBytes, State.faultLayout, Source.all, FaultRegister.get, List.flatMap_cons, List.flatMap_nil,
    h1, flagBit_packed, natBytes16_eq, twoBytes_setWidth _ (show 10 ≤ 16 by decide), List.append_assoc, List.append_nil]

/-- A slot of HISTORY_READ (R195). -/
theorem TripRecord.bytes_eq (r : TripRecord) : r.bytes = historySlot (some r) := by
  have h1 : ∀ (b : Bool) (c : ConnState), (flagBit b 7 ||| c.code.setWidth 8 : Byte)
      = packed [(b.toNat, 7), (c.number, 0)] := by
    intro b c
    cases b <;> cases c <;> rfl
  have h2 : ∀ c : FaultCode, c.code = c.number := by
    intro c
    cases c with
    | of src => cases src <;> rfl
    | pathConflict => rfl
  have h3 : ∀ src : Source, src.code = (FaultCode.of src).number := fun src => h2 (.of src)
  simp only [TripRecord.bytes, historySlot, h1, h2, h3, bytes16_eq, natBytes32_eq]

theorem TripRecord.bytes_length (r : TripRecord) : r.bytes.length = 11 := by
  simp [TripRecord.bytes, bytes16, natBytes32, bytes32]

theorem historySlot_none : historySlot none = List.replicate 11 0 := rfl

/-- HISTORY_READ (R195). -/
theorem State.historyBytes_eq (s : State) : s.historyBytes = s.historyLayout := by
  have ht : ∀ (r : TripRecord) (n : Nat), 11 ≤ n → r.bytes.take n = r.bytes := fun r n hn =>
    List.take_of_length_le (by rw [r.bytes_length]; exact hn)
  have h : ∀ l : List TripRecord, (l.flatMap TripRecord.bytes ++ List.replicate 44 0).take 44
      = historySlot l[0]? ++ historySlot l[1]? ++ historySlot l[2]? ++ historySlot l[3]? := by
    intro l
    match l with
    | [] => rfl
    | [a] => simp [← TripRecord.bytes_eq, List.take_append, TripRecord.bytes_length, historySlot_none, ht]
    | [a, b] => simp [← TripRecord.bytes_eq, List.take_append, TripRecord.bytes_length, historySlot_none, ht]
    | [a, b, c] => simp [← TripRecord.bytes_eq, List.take_append, TripRecord.bytes_length, historySlot_none, ht]
    | a :: b :: c :: d :: rest => simp [← TripRecord.bytes_eq, List.take_append, TripRecord.bytes_length, ht]
  simp only [State.historyBytes, State.historyLayout, h, natBytes16_eq, List.append_assoc]

/-- COUNTERS_READ (R195). -/
theorem State.counterBytes_eq (s : State) : s.counterBytes = s.countersLayout := by
  have h1 : ∀ a b : Bool, (flagBit a 0 ||| flagBit b 1 : Byte) = packed [(a.toNat, 0), (b.toNat, 1)] := by
    intro a b
    cases a <;> cases b <;> rfl
  have h2 : bytes32 ((s.meas.sample.map (·.cycle)).getD 0)
      = fourBytes ((s.meas.sample.map (·.cycle.toNat)).getD 0) := by
    rw [bytes32_eq]
    cases s.meas.sample <;> rfl
  simp only [State.counterBytes, State.countersLayout, h1, h2, natBytes16_eq, natBytes32_eq, State.level_eq]

/-- CLOSURE_READ (R195). -/
theorem State.closureBytes_eq (s : State) : s.closureBytes = s.closureLayout := by
  have h1 : ∀ a b c d : Bool, (flagBit a 7 ||| flagBit b 6 ||| flagBit c 5 ||| flagBit d 4 : Byte)
      = packed [(a.toNat, 7), (b.toNat, 6), (c.toNat, 5), (d.toNat, 4)] := by
    intro a b c d
    cases a <;> cases b <;> cases c <;> cases d <;> rfl
  have h2 : s.ownRecord = decide ((s.closure.record.map ClosureRecord.holder) = some s.ownId) := by
    unfold State.ownRecord
    cases s.closure.record <;> simp
  have h3 : s.closure.recordBytes = [((s.closure.record.map ClosureRecord.holder).getD 0).setWidth 8,
      (s.closure.record.map ClosureRecord.number).getD 0] ++ twoBytes ((s.closure.record.bind (·.expiry)).getD 0) := by
    unfold Closure.recordBytes
    cases s.closure.record with
    | none => rfl
    | some r => simp [idByte, natBytes16_eq]
  have h4 : ∀ ids : List StationId, (ids.map idByte ++ List.replicate 15 0).take 15
      = (List.range 15).map fun n => ((ids[n]?).getD 0).setWidth 8 := by
    intro ids
    apply List.ext_getElem
    · simp
    · intro n h _
      have hn : n < 15 := by simp at h; omega
      rw [List.getElem_take, List.getElem_map, List.getElem_range, List.getElem_append]
      split
      · next hl =>
        have hl' : n < ids.length := by simpa using hl
        simp [List.getElem?_eq_getElem hl', idByte]
      · next hl =>
        have hl' : ids.length ≤ n := by simpa using hl
        rw [List.getElem_replicate, List.getElem?_eq_none hl']
        rfl
  have h5 : ((s.closure.claim.map Claim.awaited).getD ([], 0)) = (s.closure.claim.map Claim.waiting).getD ([], 0) := rfl
  have h6 : ((s.closure.claim.map Claim.isAwaiting).getD false) = match s.closure.claim with
      | some ⟨_, .awaiting _ _⟩ => true
      | _ => false := by
    match s.closure.claim with
    | none => rfl
    | some ⟨_, .queued⟩ => rfl
    | some ⟨_, .awaiting _ _⟩ => rfl
  have h7 : [s.closure.lastOutcome.code] ++ s.closure.lastOutcome.objection = s.closure.lastOutcome.layout := by
    cases s.closure.lastOutcome with
    | objected peer reason => cases reason <;> rfl
    | _ => rfl
  have h8 : bytes16 ((s.closure.claim.map (·.voltage)).getD 0)
      = twoBytes ((s.closure.claim.map (·.voltage.toNat)).getD 0) := by
    rw [bytes16_eq]
    cases s.closure.claim <;> rfl
  simp only [State.closureBytes, State.closureLayout, h1, h2, h3, h4, h5, h6, h8, natBytes16_eq, ← h7]
  simp
  all_goals rfl

end Sys2Proof.Machine
end

