-- ==== Sys2Proof/Laws/PerInstr.lean ====
section
/-! SUPPORT. One statement for every command, proved command by command: the bytes that a module controller clocks in for a well-formed command are its code and as many argument bytes as R194 gives that code. -/

namespace Sys2Proof.Laws.PortBytes

/-- The bytes of a command: one code byte and the arguments of that code (R177, R194). A command that is no transaction of
the service port has no bytes. -/
def Statement (i : Instr) : Prop :=
  ∀ bytes : List Byte, i.wf = true → encodePort i = some bytes →
    bytes.length = 1 + portArgumentCount (bytes.headD 0)

/-- A command that spells no bytes. -/
theorem of_no_bytes {i : Instr} (h : encodePort i = none) : Statement i := by
  intro bytes _ he
  rw [h] at he
  exact absurd he (by simp)

/-- A command that spells given bytes. -/
theorem of_bytes {i : Instr} {l : List Byte} (h : encodePort i = some l)
    (hl : l.length = 1 + portArgumentCount (l.headD 0)) : Statement i := by
  intro bytes _ he
  rw [h] at he
  cases he
  exact hl

theorem lineIdle : ∀ a, Statement (.lineIdle a) := fun _ => of_no_bytes rfl

theorem collisionError : Statement .collisionError := of_no_bytes rfl

theorem txSuccess : Statement .txSuccess := of_no_bytes rfl

theorem txAttemptFailed : ∀ a, Statement (.txAttemptFailed a) := fun _ => of_no_bytes rfl

theorem frameFaulty : ∀ a, Statement (.frameFaulty a) := fun _ => of_no_bytes rfl

theorem frameRejected : ∀ a, Statement (.frameRejected a) := fun _ => of_no_bytes rfl

theorem unknownKindFrame : ∀ a, Statement (.unknownKindFrame a) := fun _ => of_no_bytes rfl

theorem statusReceived : ∀ a b, Statement (.statusReceived a b) := fun _ _ => of_no_bytes rfl

theorem tripReceived : ∀ a b, Statement (.tripReceived a b) := fun _ _ => of_no_bytes rfl

theorem claimReceived : ∀ a b, Statement (.claimReceived a b) := fun _ _ => of_no_bytes rfl

theorem objectReceived : ∀ a b, Statement (.objectReceived a b) := fun _ _ => of_no_bytes rfl

theorem assentReceived : ∀ a b, Statement (.assentReceived a b) := fun _ _ => of_no_bytes rfl

theorem closedReceived : ∀ a b, Statement (.closedReceived a b) := fun _ _ => of_no_bytes rfl

theorem abandonReceived : ∀ a b, Statement (.abandonReceived a b) := fun _ _ => of_no_bytes rfl

theorem releaseReceived : ∀ a, Statement (.releaseReceived a) := fun _ => of_no_bytes rfl

theorem silentExitCount : Statement .silentExitCount := of_no_bytes rfl

theorem silenceTimerExpiry : Statement .silenceTimerExpiry := of_no_bytes rfl

theorem rosterStaleLimit : ∀ a, Statement (.rosterStaleLimit a) := fun _ => of_no_bytes rfl

theorem rosterEmptyLimit : ∀ a, Statement (.rosterEmptyLimit a) := fun _ => of_no_bytes rfl

theorem recordExpiry : Statement .recordExpiry := of_no_bytes rfl

theorem claimTimerExpiry : Statement .claimTimerExpiry := of_no_bytes rfl

theorem holdOffExpiry : Statement .holdOffExpiry := of_no_bytes rfl

theorem quietPeriodExpiry : Statement .quietPeriodExpiry := of_no_bytes rfl

theorem settleEnd : Statement .settleEnd := of_no_bytes rfl

theorem releaseTimerExpiry : Statement .releaseTimerExpiry := of_no_bytes rfl

theorem statusTimerExpiry : Statement .statusTimerExpiry := of_no_bytes rfl

theorem sampleComplete : ∀ a b, Statement (.sampleComplete a b) := fun _ _ => of_no_bytes rfl

theorem shortOnset : ∀ a, Statement (.shortOnset a) := fun _ => of_no_bytes rfl

theorem shortClearance : ∀ a, Statement (.shortClearance a) := fun _ => of_no_bytes rfl

theorem lockoutWindowExpiry : Statement .lockoutWindowExpiry := of_no_bytes rfl

theorem selfCheckEnd : ∀ a, Statement (.selfCheckEnd a) := fun _ => of_no_bytes rfl

theorem sleepEntry : Statement .sleepEntry := of_no_bytes rfl

theorem wakeLine : Statement .wakeLine := of_no_bytes rfl

theorem currentWake : ∀ a, Statement (.currentWake a) := fun _ => of_no_bytes rfl

theorem portWake : Statement .portWake := of_no_bytes rfl

theorem wakePulseEnd : Statement .wakePulseEnd := of_no_bytes rfl

theorem mainDomainReady : ∀ a, Statement (.mainDomainReady a) := fun _ => of_no_bytes rfl

theorem vkaLoss : Statement .vkaLoss := of_no_bytes rfl

theorem powerOnResetEnd : ∀ a, Statement (.powerOnResetEnd a) := fun _ => of_no_bytes rfl

theorem resetnLow : ∀ a b, Statement (.resetnLow a b) := fun _ _ => of_no_bytes rfl

theorem vddLow : Statement .vddLow := of_no_bytes rfl

theorem pinResetEnd : ∀ a b, Statement (.pinResetEnd a b) := fun _ _ => of_no_bytes rfl

theorem serviceResetEnd : ∀ a, Statement (.serviceResetEnd a) := fun _ => of_no_bytes rfl

theorem ssnRelease : Statement .ssnRelease := of_no_bytes rfl

theorem ident : Statement .ident := of_bytes rfl rfl

theorem statusRead : Statement .statusRead := of_bytes rfl rfl

theorem sampleRead : Statement .sampleRead := of_bytes rfl rfl

theorem rosterRead : ∀ a, Statement (.rosterRead a) := fun _ => of_bytes rfl rfl

theorem faultRead : Statement .faultRead := of_bytes rfl rfl

theorem historyRead : Statement .historyRead := of_bytes rfl rfl

theorem countersRead : Statement .countersRead := of_bytes rfl rfl

theorem closureRead : Statement .closureRead := of_bytes rfl rfl

theorem configWrite : ∀ a b, Statement (.configWrite a b) := fun _ _ => of_bytes rfl rfl

theorem configCommit : ∀ a, Statement (.configCommit a) := fun _ => of_bytes rfl rfl

theorem join : Statement .join := of_bytes rfl rfl

theorem leave : Statement .leave := of_bytes rfl rfl

theorem sleep : Statement .sleep := of_bytes rfl rfl

theorem ackTrip : Statement .ackTrip := of_bytes rfl rfl

theorem setHolds : ∀ a, Statement (.setHolds a) := fun _ => of_bytes rfl rfl

theorem clearFaults : ∀ a, Statement (.clearFaults a) := fun _ => of_bytes rfl rfl

theorem check : Statement .check := of_bytes rfl rfl

theorem eventClear : ∀ a, Statement (.eventClear a) := fun _ => of_bytes rfl rfl

theorem eventEnable : ∀ a, Statement (.eventEnable a) := fun _ => of_bytes rfl rfl

theorem serviceReset : Statement .serviceReset := of_bytes rfl rfl

theorem unknownCommand : ∀ a, Statement (.unknownCommand a) := by
  intro a bytes hw he
  cases he
  have hc : portCodeAssigned a = false := by simpa [Instr.wf] using hw
  have h : portArgumentCount a = 0 := by
    unfold portArgumentCount
    rw [if_neg, if_neg, if_neg]
    · rintro (rfl | rfl | rfl | rfl) <;> exact absurd hc (by decide)
    · rintro rfl; exact absurd hc (by decide)
    · rintro rfl; exact absurd hc (by decide)
  simp [h]

theorem transactionBegin : Statement .transactionBegin := of_no_bytes rfl

end Sys2Proof.Laws.PortBytes
end

