-- ==== Sys2Proof/Laws/Trips.lean ====
section
/-! SUPPORT. What a trip and an onset leave (R130, R132, R134, R138 to R148): the fault unit after one trip procedure, the trips of the removal of the closing hold, and that a trip, with its description, is one in the sense of Safety.lean. -/

namespace Sys2Proof.Machine

/-! ## The history -/

/-- A record is appended to the history or to all of it but the oldest (R144). -/
theorem appendTrip_eq (h : List TripRecord) (r : TripRecord) :
    ∃ earlier, earlier <:+ h ∧ appendTrip h r = earlier ++ [r] := by
  unfold appendTrip
  split
  · exact ⟨_, List.drop_suffix _ _, rfl⟩
  · exact ⟨_, List.suffix_rfl, rfl⟩

/-- A record that stands among the last three of a history stays when the next is appended. -/
theorem appendTrip_keeps (earlier later : List TripRecord) (r x : TripRecord) (h : later.length ≤ 2) :
    ∃ e, e <:+ earlier ∧ appendTrip (earlier ++ r :: later) x = e ++ r :: (later ++ [x]) := by
  unfold appendTrip
  split
  · next h4 =>
    match earlier with
    | [] => simp at h4; omega
    | a :: rest => exact ⟨rest, List.suffix_cons _ _, by simp⟩
  · exact ⟨earlier, List.suffix_rfl, by simp⟩

/-- The record of the next trip with a description. -/
def State.nextRecord (d : TripCause) (s : State) : TripRecord :=
  { number := s.fault.nextTripNumber, code := d.code, source := d.source, scope := d.scope, connState := s.conn.state,
    value := d.value, accumulator := s.snapshot }

theorem State.nextRecord_tells (d : TripCause) (s : State) :
    (s.nextRecord d).Tells d s.conn.state (s.fault.tripCounter + 1) s.snapshot := by
  refine ⟨rfl, rfl, rfl, rfl, rfl, rfl, fun h => ?_⟩
  simp only [State.nextRecord, FaultUnit.nextTripNumber]
  rw [if_pos (by omega), BitVec.toNat_ofNat]
  omega

/-! ## One trip procedure -/

/-- The Fault Unit after the trip procedure (R139, R140, R143, R144). -/
theorem State.tripCore_fault (d : TripCause) (s : State) :
    (s.tripCore d).fault = { s.fault with
      lockout := if d.classA then some 10000 else s.fault.lockout
      tripCounter := min 65535 (s.fault.tripCounter + 1)
      history := appendTrip s.fault.history (s.nextRecord d) } := by
  unfold State.tripCore
  dsimp only
  split <;> simp only [State.takeBusTrip, State.recordTrip, State.openSwitches, State.nextRecord, State.snapshot,
    lockoutMs, State.setEvent_frame, State.changeConn_frame, State.abortClaim_frame, State.queueFrame_frame] <;> rfl

theorem State.abortClaim_lastOutcome (o : ClaimOutcome) (s : State) (h : s.closure.claim.isSome = true) :
    (s.abortClaim o).closure.lastOutcome = o := by
  unfold State.abortClaim
  split
  · next hn => simp [hn] at h
  · split <;> simp [State.endClaim]

theorem mem_removeKind {k : FrameKind} {l : List TxFrame} {f : TxFrame} (h : f.frame.kind ≠ k) (hf : f ∈ l) :
    f ∈ removeKind k l := by
  induction l with
  | nil => exact hf
  | cons g gs ih =>
    unfold removeKind
    split
    · next hk =>
      rcases List.mem_cons.1 hf with rfl | hf
      · exact absurd hk h
      · exact hf
    · rcases List.mem_cons.1 hf with rfl | hf
      · exact List.mem_cons_self
      · exact List.mem_cons_of_mem _ (ih hf)

theorem State.abortClaim_pends (o : ClaimOutcome) (s : State) (f : Frame) (h : f.kind ≠ .claim) (hf : s.Pends f) :
    (s.abortClaim o).Pends f := by
  obtain ⟨n, hn⟩ := hf
  unfold State.abortClaim State.withdrawClaim
  (repeat' split) <;> first
    | exact ⟨n, hn⟩
    | exact ⟨n, mem_removeKind h hn⟩

/-- A TRIP handed over in ACTIVE is pending with its own content where none pends and none is on the line (R13). -/
theorem State.queueFrame_trip_pends (p : TripPayload) (s : State) (hb : s.mbi.bus = .active)
    (hl : s.mbi.onLine ≠ some .trip) (hk : hasKind .trip s.mbi.list = false) : (s.queueFrame (.trip p)).Pends (.trip p) := by
  simp [State.queueFrame, hb, Mbi.handTrip, hl, Mbi.putTrip, hk, Mbi.join, State.Pends, mem_insertFrame]

/-- The trip procedure hands over its TRIP frame (R139). -/
theorem State.tripCore_pends (d : TripCause) (s : State) (hb : s.mbi.bus = .active) (hl : s.mbi.onLine ≠ some .trip)
    (hk : hasKind .trip s.mbi.list = false) :
    (s.tripCore d).Pends (.trip ⟨BitVec.ofNat 8 d.code.number, if d.scope = .bus then 1 else 0, d.value⟩) := by
  have hc : d.code.code = d.code.number := by
    cases d.code with
    | of src => cases src <;> rfl
    | pathConflict => rfl
  have hs : d.scope.code = if d.scope = .bus then 1 else 0 := by cases d.scope <;> rfl
  rw [← hc, ← hs]
  have h := State.queueFrame_trip_pends ⟨BitVec.ofNat 8 d.code.code, d.scope.code, d.value⟩
    (s.openSwitches.recordTrip d s.conn.state) hb hl hk
  unfold State.tripCore
  dsimp only
  split
  all_goals exact State.changeConn_pends _ _ _ _ (by simp [Frame.kind]) (State.abortClaim_pends _ _ _ (by simp [Frame.kind]) h)

/-- The closure engine after the trip procedure where no claim is in progress. -/
theorem State.tripCore_closure (d : TripCause) (s : State) (h : s.closure.claim = none) :
    (s.tripCore d).closure.lastOutcome = s.closure.lastOutcome
      ∧ (d.scope = .localOnly → (s.tripCore d).closure.quiet = s.closure.quiet)
      ∧ (s.closure.record = none → (s.tripCore d).closure.record = none) := by
  have hr : ∀ (new : ConnState) (path : Path) (u : State), u.closure.record = none →
      (u.changeConn new path).closure.record = none := by
    intro new path u hu
    unfold State.changeConn
    split
    · exact hu
    · simp [State.recordAfter, hu]
  have ha : (((s.openSwitches.recordTrip d s.conn.state).queueFrame
      (.trip ⟨BitVec.ofNat 8 d.code.code, d.scope.code, d.value⟩)).abortClaim .tripped).closure = s.closure := by
    unfold State.abortClaim
    simp [State.openSwitches, State.recordTrip, h]
  unfold State.tripCore
  dsimp only
  split
  · next hd => refine ⟨by simp [State.takeBusTrip, ha], fun hl => by simp [hd] at hl, fun _ => rfl⟩
  · exact ⟨by simp [ha], fun _ => by simp [ha], fun hn => hr _ _ _ (by rw [ha]; exact hn)⟩

/-- The trip procedure is a trip with no other behind it. -/
theorem State.tripCore_takes (d : TripCause) (s : State) : s.TakesTrip d (s.tripCore d) := by
  refine ⟨State.tripCore_hasTripped d s, ?_, by rw [State.tripCore_fault], ?_, ?_, ?_, ?_⟩
  · simp [State.tripCore_state, or_assoc]
  · intro h
    unfold State.tripCore
    dsimp only
    split <;> simp [State.takeBusTrip, State.setEvent, State.abortClaim_lastOutcome, State.openSwitches, State.recordTrip, h]
  · intro h
    unfold State.tripCore
    simp [h, State.takeBusTrip, quietMs]
  · obtain ⟨earlier, hsuf, he⟩ := appendTrip_eq s.fault.history (s.nextRecord d)
    exact ⟨earlier, s.nextRecord d, [], hsuf, by rw [State.tripCore_fault, he], s.nextRecord_tells d,
      by rw [State.tripCore_fault]; rfl, Or.inl rfl⟩
  · intro hb hl hk _
    exact State.tripCore_pends d s hb hl hk

/-! ## The removal of the closing hold -/

/-- Where the removal has released its source the postponed action is a trip (R132). -/
theorem State.postponedOverCurrent_eq (oc : Source) (s : State) (hs : (s.fault.register.get oc).state = .held)
    (hh : s.isHeld oc = false) (hoc : oc = .ocDsg ∨ oc = .ocChg) :
    s.postponedOverCurrent oc = ((s.setSource oc { s.fault.register.get oc with
      state := .active }).cancelSleep).tripCore (s.heldCause oc) := by
  have hd : oc.tripCause ((s.fault.register.get oc).value.getD 0) .localOnly = s.heldCause oc := by
    rcases hoc with rfl | rfl <;> rfl
  unfold State.postponedOverCurrent
  dsimp only
  rw [if_pos ⟨hs, hh⟩, hd]

/-- What one postponed over-current trip does where the removal has released its source (R132). -/
theorem State.postponedOverCurrent_trips (oc : Source) (s : State) (hs : (s.fault.register.get oc).state = .held)
    (hh : s.isHeld oc = false) (hoc : oc = .ocDsg ∨ oc = .ocChg) :
    ∃ r : TripRecord, r.Tells (s.heldCause oc) s.conn.state (s.fault.tripCounter + 1) s.snapshot
      ∧ (s.postponedOverCurrent oc).fault = { s.fault with
          register := s.fault.register.set oc { s.fault.register.get oc with state := .active }
          tripCounter := min 65535 (s.fault.tripCounter + 1)
          history := appendTrip s.fault.history r }
      ∧ (s.postponedOverCurrent oc).conn.state = (if s.conn.state = .lockout then .lockout else .tripped)
      ∧ (s.postponedOverCurrent oc).conn.sleepPending = false
      ∧ (s.closure.claim = none →
          (s.postponedOverCurrent oc).closure.lastOutcome = s.closure.lastOutcome
            ∧ (s.postponedOverCurrent oc).closure.quiet = s.closure.quiet
            ∧ (s.closure.record = none → (s.postponedOverCurrent oc).closure.record = none)) := by
  have hp := State.postponedOverCurrent_eq oc s hs hh hoc
  have hc : (s.heldCause oc).classA = false := rfl
  have hf : ((s.setSource oc { s.fault.register.get oc with state := .active }).cancelSleep).fault
      = { s.fault with register := s.fault.register.set oc { s.fault.register.get oc with state := .active } } := by
    rw [State.cancelSleep_register]
    unfold State.setSource
    dsimp only
    split <;> simp
  have hsleep : ∀ u : State, u.cancelSleep.conn.sleepPending = false := by
    intro u
    unfold State.cancelSleep
    split <;> simp_all
  refine ⟨((s.setSource oc { s.fault.register.get oc with state := .active }).cancelSleep).nextRecord (s.heldCause oc),
    ?_, ?_, ?_, ?_, ?_⟩
  · have := State.nextRecord_tells (s.heldCause oc)
      ((s.setSource oc { s.fault.register.get oc with state := .active }).cancelSleep)
    simpa [hf, State.snapshot] using this
  · rw [hp, State.tripCore_fault, hf, hc]
    simp
  · rw [hp, State.tripCore_state]
    simp [State.heldCause]
  · rw [hp]
    simp [hsleep]
  · intro hn
    have := State.tripCore_closure (s.heldCause oc)
      ((s.setSource oc { s.fault.register.get oc with state := .active }).cancelSleep) (by simpa using hn)
    rw [hp]
    refine ⟨?_, ?_, ?_⟩
    · simpa using this.1
    · simpa [State.heldCause] using this.2.1 rfl
    · simpa using this.2.2

/-- A source that the removal does not release is left alone. -/
theorem State.postponedOverCurrent_of_not (oc : Source) (s : State)
    (h : ¬ ((s.fault.register.get oc).state = .held ∧ s.isHeld oc = false)) : s.postponedOverCurrent oc = s := by
  unfold State.postponedOverCurrent
  exact if_neg h

theorem TripRecord.Tells.renumber {d : TripCause} {before : ConnState} {m n acc : Nat} {r : TripRecord}
    (h : r.Tells d before m acc) (hm : n ≤ 65535 → m = n) : r.Tells d before n acc := by
  obtain ⟨h1, h2, h3, h4, h5, h6, h7⟩ := h
  exact ⟨h1, h2, h3, h4, h5, h6, fun hn => by rw [← hm hn]; exact h7 (by rw [hm hn]; exact hn)⟩

/-- The waiting sources after the procedure are those that waited before it. -/
theorem State.waits_iff (oc : Source) (hoc : oc = .ocDsg ∨ oc = .ocChg) (s : State) (hc : s.fault.closingHold = true)
    (u : State) (hr : u.fault.register.get oc = s.fault.register.get oc) (hp : u.fault.portHolds = s.fault.portHolds)
    (hu : u.fault.closingHold = false) :
    s.WaitsForClosingHold oc ↔ (u.fault.register.get oc).state = .held ∧ u.isHeld oc = false := by
  unfold State.WaitsForClosingHold State.isHeld
  rw [hr, hp, hu]
  rcases hoc with rfl | rfl <;> simp [hc, Source.classB, Source.code]

/-- A trip outside CLOSING is the procedure alone; in CLOSING the two postponed actions follow it. -/
theorem State.takeTrip_eq (d : TripCause) (s : State) :
    s.takeTrip d = if s.conn.state = .closing then
        if s.fault.closingHold then
          (({ s.tripCore d with fault := { (s.tripCore d).fault with closingHold := false } } : State).postponedOverCurrent
            .ocDsg).postponedOverCurrent .ocChg
        else { s.tripCore d with fault := { (s.tripCore d).fault with closingHold := false } }
      else s.tripCore d := by
  unfold State.takeTrip State.liftClosingHold
  split
  · cases hc : s.fault.closingHold
    · have : (s.tripCore d).fault.closingHold = false := by simp [hc]
      simp only [this, Bool.false_eq_true, if_false]
      rw [← this]
    · simp [hc]
  · rfl

/-- A trip taken in CLOSING (R87, R132, R134). -/
theorem State.takeTrip_lifts (d : TripCause) (s : State) (h : s.conn.state = .closing) :
    s.TripLiftsClosingHold d (s.takeTrip d) := by
  rw [State.takeTrip_eq, if_pos h]
  cases hc : s.fault.closingHold
  · have hw : ∀ oc, ¬ s.WaitsForClosingHold oc := fun oc hw => by simp [State.WaitsForClosingHold, hc] at hw
    refine ⟨rfl, fun _ => rfl, fun oc hoc => absurd hoc (hw oc), fun other _ => by simp, fun oc _ _ hoc => absurd hoc (hw oc),
      fun hoc => absurd hoc (hw _)⟩
  · simp only [if_true]
    generalize hu : ({ s.tripCore d with fault := { (s.tripCore d).fault with closingHold := false } } : State) = v
    have hreg : v.fault.register = s.fault.register := by simp [← hu]
    have hports : v.fault.portHolds = s.fault.portHolds := by simp [← hu]
    have hhold : v.fault.closingHold = false := by simp [← hu]
    have hhist : ∃ earlier, earlier <:+ s.fault.history ∧ v.fault.history = earlier ++ [s.nextRecord d] := by
      rw [← hu]; simp only [State.tripCore_fault]; exact appendTrip_eq _ _
    have hcount : v.fault.tripCounter = min 65535 (s.fault.tripCounter + 1) := by
      rw [← hu]; simp only [State.tripCore_fault]
    have hsnap : v.snapshot = s.snapshot := by simp [State.snapshot, ← hu]
    have hconn : v.conn.state = .tripped ∨ v.conn.state = .lockout := by
      rw [← hu]; exact (State.tripCore_hasTripped d s).1
    have hrec := State.nextRecord_tells d s
    rw [h] at hrec
    have ht : v.HasTripped := by rw [← hu]; exact State.tripCore_hasTripped d s
    obtain ⟨earlier, hsuf, hhist⟩ := hhist
    have hwaits : ∀ oc, s.WaitsForClosingHold oc → oc = .ocDsg ∨ oc = .ocChg := fun oc hoc => hoc.1
    have hdsg := State.waits_iff .ocDsg (Or.inl rfl) s hc v (by rw [hreg]) hports hhold
    have hcause : ∀ (w : State) (oc : Source), w.fault.register.get oc = s.fault.register.get oc →
        w.heldCause oc = s.heldCause oc := fun w oc hw => by simp [State.heldCause, hw]
    have hstay : ∀ c : ConnState, (c = .tripped ∨ c = .lockout) →
        (if c = .lockout then ConnState.lockout else .tripped) = c := by
      rintro c (rfl | rfl) <;> rfl
    by_cases hA : s.WaitsForClosingHold .ocDsg
    · obtain ⟨r1, hr1, hf1, hs1, hsl1, -⟩ := State.postponedOverCurrent_trips .ocDsg v (hdsg.1 hA).1 (hdsg.1 hA).2 (Or.inl rfl)
      have hT1 := State.postponedOverCurrent_hasTripped (src := .ocDsg) ht
      generalize hw : v.postponedOverCurrent .ocDsg = w at hf1 hs1 hsl1 hT1
      have hgetD : w.fault.register.get .ocDsg = { s.fault.register.get .ocDsg with state := .active } := by
        rw [hf1]; simp [hreg]
      have hgetC : w.fault.register.get .ocChg = s.fault.register.get .ocChg := by
        rw [hf1]; simp only; rw [FaultRegister.get_set_of_ne _ _ _ _ (by decide), hreg]
      have hother : ∀ other, other ≠ .ocDsg → w.fault.register.get other = s.fault.register.get other := fun other ho => by
        rw [hf1]; simp only; rw [FaultRegister.get_set_of_ne _ _ _ _ ho, hreg]
      have hsnapw : w.snapshot = s.snapshot := by rw [← hsnap, ← hw]; simp [State.snapshot]
      rw [hstay _ hconn] at hs1
      rw [hcause v .ocDsg (by rw [hreg]), hsnap, hcount] at hr1
      have hchg := State.waits_iff .ocChg (Or.inr rfl) s hc w hgetC (by rw [hf1]; exact hports) (by rw [hf1]; exact hhold)
      by_cases hB : s.WaitsForClosingHold .ocChg
      · obtain ⟨r2, hr2, hf2, hs2, hsl2, -⟩ := State.postponedOverCurrent_trips .ocChg w (hchg.1 hB).1 (hchg.1 hB).2 (Or.inr rfl)
        have hT2 := State.postponedOverCurrent_hasTripped (src := .ocChg) hT1
        generalize w.postponedOverCurrent .ocChg = u at hf2 hs2 hsl2 hT2
        have hh : ∃ e, e <:+ s.fault.history ∧ u.fault.history = e ++ [s.nextRecord d, r1, r2] := by
          rw [hf2]; simp only; rw [hf1]; simp only; rw [hhist]
          obtain ⟨e1, hs1, he1⟩ := appendTrip_keeps earlier [] (s.nextRecord d) r1 (by simp)
          rw [he1]
          obtain ⟨e2, hs2, he2⟩ := appendTrip_keeps e1 [r1] (s.nextRecord d) r2 (by simp)
          exact ⟨e2, hs2.trans (hs1.trans hsuf), he2⟩
        have hu2 : u.conn.state = w.conn.state := by rw [hs2]; exact hstay _ (hs1 ▸ hconn)
        have hn : u.fault.tripCounter = min 65535 (s.fault.tripCounter + 3) := by
          rw [hf2]; simp only; rw [hf1]; simp only; omega
        have hr1' : r1.Tells (s.heldCause .ocDsg) u.conn.state (s.fault.tripCounter + 2) s.snapshot := by
          rw [hu2, hs1]; exact hr1.renumber (by omega)
        have hr2' : r2.Tells (s.heldCause .ocChg) u.conn.state (s.fault.tripCounter + 3) s.snapshot := by
          rw [hu2]; rw [hcause w .ocChg hgetC, hsnapw] at hr2
          exact hr2.renumber (by rw [hf1]; simp only; omega)
        obtain ⟨e, hes, he⟩ := hh
        have hgC : u.fault.register.get .ocChg = { s.fault.register.get .ocChg with state := .active } := by
          rw [hf2]; simp [hgetC]
        have hgO : ∀ other, other ≠ .ocChg → u.fault.register.get other = w.fault.register.get other := fun other ho => by
          rw [hf2]; simp only; rw [FaultRegister.get_set_of_ne _ _ _ _ ho]
        refine ⟨by rw [hf2]; simp only; rw [hf1]; exact hhold, fun hno => absurd hA (hno _), ?_, ?_, ?_,
          fun _ _ => ⟨hn, e, _, _, _, hes, he, hrec, hr1', hr2'⟩⟩
        · intro oc hoc
          rcases hwaits oc hoc with rfl | rfl
          · exact ⟨by rw [hgO _ (by decide), hgetD], hT2, hsl2, r1, by rw [he]; simp, hr1'.1, hr1'.2.1, hr1'.2.2.1, hr1'.2.2.2.1⟩
          · exact ⟨hgC, hT2, hsl2, r2, by rw [he]; simp, hr2'.1, hr2'.2.1, hr2'.2.2.1, hr2'.2.2.2.1⟩
        · intro other ho
          rw [hgO _ (by rintro rfl; exact ho hB), hother _ (by rintro rfl; exact ho hA)]
        · rintro oc other (⟨rfl, rfl⟩ | ⟨rfl, rfl⟩) _ hno
          · exact absurd hB hno
          · exact absurd hA hno
      · rw [State.postponedOverCurrent_of_not .ocChg w (fun hh => hB (hchg.2 hh))]
        have hh : ∃ e, e <:+ s.fault.history ∧ w.fault.history = e ++ [s.nextRecord d, r1] := by
          rw [hf1]; simp only; rw [hhist]
          obtain ⟨e, hs, he⟩ := appendTrip_keeps earlier [] (s.nextRecord d) r1 (by simp)
          exact ⟨e, hs.trans hsuf, he⟩
        obtain ⟨e, hes, he⟩ := hh
        have hr1' : r1.Tells (s.heldCause .ocDsg) w.conn.state (s.fault.tripCounter + 2) s.snapshot := by
          rw [hs1]; exact hr1.renumber (by omega)
        have hn : w.fault.tripCounter = min 65535 (s.fault.tripCounter + 2) := by
          rw [hf1]; simp only; omega
        refine ⟨by rw [hf1]; exact hhold, fun hno => absurd hA (hno _), ?_, ?_, ?_, fun _ hb => absurd hb hB⟩
        · intro oc hoc
          rcases hwaits oc hoc with rfl | rfl
          · exact ⟨hgetD, hT1, hsl1, r1, by rw [he]; simp, hr1'.1, hr1'.2.1, hr1'.2.2.1, hr1'.2.2.2.1⟩
          · exact absurd hoc hB
        · intro other ho
          exact hother _ (by rintro rfl; exact ho hA)
        · rintro oc other (⟨rfl, rfl⟩ | ⟨rfl, rfl⟩) hoc _
          · exact ⟨hn, e, _, _, hes, he, hrec, hr1'⟩
          · exact absurd hoc hB
    · rw [State.postponedOverCurrent_of_not .ocDsg v (fun hh => hA (hdsg.2 hh))]
      have hchg := State.waits_iff .ocChg (Or.inr rfl) s hc v (by rw [hreg]) hports hhold
      by_cases hB : s.WaitsForClosingHold .ocChg
      · obtain ⟨r2, hr2, hf2, hs2, hsl2, -⟩ := State.postponedOverCurrent_trips .ocChg v (hchg.1 hB).1 (hchg.1 hB).2 (Or.inr rfl)
        have hT2 := State.postponedOverCurrent_hasTripped (src := .ocChg) ht
        generalize v.postponedOverCurrent .ocChg = u at hf2 hs2 hsl2 hT2
        have hh : ∃ e, e <:+ s.fault.history ∧ u.fault.history = e ++ [s.nextRecord d, r2] := by
          rw [hf2]; simp only; rw [hhist]
          obtain ⟨e, hs, he⟩ := appendTrip_keeps earlier [] (s.nextRecord d) r2 (by simp)
          exact ⟨e, hs.trans hsuf, he⟩
        obtain ⟨e, hes, he⟩ := hh
        rw [hstay _ hconn] at hs2
        have hr2' : r2.Tells (s.heldCause .ocChg) u.conn.state (s.fault.tripCounter + 2) s.snapshot := by
          rw [hs2]; rw [hcause v .ocChg (by rw [hreg]), hsnap, hcount] at hr2
          exact hr2.renumber (by omega)
        have hn : u.fault.tripCounter = min 65535 (s.fault.tripCounter + 2) := by
          rw [hf2]; simp only; omega
        refine ⟨by rw [hf2]; exact hhold, fun hno => absurd hB (hno _), ?_, ?_, ?_, fun ha => absurd ha hA⟩
        · intro oc hoc
          rcases hwaits oc hoc with rfl | rfl
          · exact absurd hoc hA
          · exact ⟨by rw [hf2]; simp [hreg], hT2, hsl2, r2, by rw [he]; simp, hr2'.1, hr2'.2.1, hr2'.2.2.1, hr2'.2.2.2.1⟩
        · intro other ho
          rw [hf2]; simp only; rw [FaultRegister.get_set_of_ne _ _ _ _ (by rintro rfl; exact ho hB), hreg]
        · rintro oc other (⟨rfl, rfl⟩ | ⟨rfl, rfl⟩) hoc _
          · exact absurd hoc hA
          · exact ⟨hn, e, _, _, hes, he, hrec, hr2'⟩
      · rw [State.postponedOverCurrent_of_not .ocChg v (fun hh => hB (hchg.2 hh))]
        refine ⟨hhold, fun _ => hu.symm, ?_, fun other _ => by rw [hreg], ?_, fun ha => absurd ha hA⟩
        · intro oc hoc
          rcases hwaits oc hoc with rfl | rfl
          · exact absurd hoc hA
          · exact absurd hoc hB
        · rintro oc other (⟨rfl, rfl⟩ | ⟨rfl, rfl⟩) hoc _
          · exact absurd hoc hA
          · exact absurd hoc hB

/-- Records and a cancelled sleep leave a pending frame alone, unless it is a STATUS. -/
theorem State.setSource_pends (src : Source) (x : SourceRecord) (s : State) (f : Frame) (h : f.kind ≠ .status)
    (hf : s.Pends f) : (s.setSource src x).Pends f := by
  unfold State.setSource
  dsimp only
  split
  · exact State.handStatus_pends _ _ h hf
  · exact hf

theorem State.cancelSleep_pends (s : State) (f : Frame) (h : f.kind ≠ .status) (hf : s.Pends f) :
    s.cancelSleep.Pends f := by
  unfold State.cancelSleep
  split
  · exact State.handStatus_pends _ _ h hf
  · exact hf

/-- A trip merges its TRIP with a pending one (R13). -/
theorem State.tripCore_merges (d : TripCause) (old : TripPayload) (s : State) (hb : s.mbi.bus = .active)
    (hl : s.mbi.onLine ≠ some .trip) (hp : s.Pends (.trip old)) :
    (s.tripCore d).Pends (.trip ⟨BitVec.ofNat 8 d.code.number,
      if d.scope = .bus ∨ old.scope = 1 then 1 else 0, d.value⟩) := by
  have hc : d.code.code = d.code.number := by
    cases d.code with
    | of src => cases src <;> rfl
    | pathConflict => rfl
  have h : ((s.openSwitches.recordTrip d s.conn.state).queueFrame
      (.trip ⟨BitVec.ofNat 8 d.code.code, d.scope.code, d.value⟩)).Pends
      (.trip ⟨BitVec.ofNat 8 d.code.number, if d.scope = .bus ∨ old.scope = 1 then 1 else 0, d.value⟩) := by
    obtain ⟨n, hn⟩ := hp
    have hk : hasKind .trip s.mbi.list = true := (hasKind_iff _ _).2 ⟨_, hn, rfl⟩
    refine ⟨n, ?_⟩
    have hm := List.mem_map_of_mem (f := mergeTrip ⟨BitVec.ofNat 8 d.code.code, d.scope.code, d.value⟩) hn
    simp only [State.queueFrame, State.recordTrip, State.openSwitches, hb, ne_eq, not_true, if_false, Mbi.handTrip, hl,
      Mbi.putTrip, hk, if_true]
    rw [hc] at hm
    rw [hc]
    convert hm using 1
    simp only [mergeTrip, mergeTrips]
    cases d.scope <;> simp [Scope.code]
  revert h
  generalize hf : Frame.trip _ = f
  intro h
  have hk : f.kind ≠ .status := by rw [← hf]; simp [Frame.kind]
  unfold State.tripCore
  dsimp only
  split
  all_goals exact State.changeConn_pends _ _ _ _ hk (State.abortClaim_pends _ _ _ (by rw [← hf]; simp [Frame.kind]) h)

/-- The postponed trip of a source that the removal has released, on a pending TRIP. -/
theorem State.postponedOverCurrent_merges (oc : Source) (old : TripPayload) (s : State)
    (hs : (s.fault.register.get oc).state = .held) (hh : s.isHeld oc = false) (hoc : oc = .ocDsg ∨ oc = .ocChg)
    (hb : s.mbi.bus = .active) (hl : s.mbi.onLine ≠ some .trip) (hp : s.Pends (.trip old)) :
    (s.postponedOverCurrent oc).Pends (.trip ⟨BitVec.ofNat 8 (FaultCode.of oc).number,
      if old.scope = 1 then 1 else 0, (s.heldCause oc).value⟩) := by
  have h := State.tripCore_merges (s.heldCause oc) old
    ((s.setSource oc { s.fault.register.get oc with state := .active }).cancelSleep) (by simpa using hb)
    (by simpa [Mbi.onLine] using hl)
    (State.cancelSleep_pends _ _ (by simp [Frame.kind]) (State.setSource_pends _ _ _ _ (by simp [Frame.kind]) hp))
  rw [State.postponedOverCurrent_eq oc s hs hh hoc]
  simpa only [State.heldCause, reduceCtorEq, false_or] using h

/-- The TRIP frame after a trip in CLOSING behind which over-current sources have tripped (R13, R139). -/
theorem State.takeTrip_tellsLast (d : TripCause) (s : State) (h : s.conn.state = .closing) :
    s.TripFrameTellsLast d (s.takeTrip d) := by
  intro oc hoc hlast hb hl hk
  rw [State.takeTrip_eq, if_pos h, if_pos hoc.2.1]
  have hc := hoc.2.1
  have hp := State.tripCore_pends d s hb hl hk
  generalize hv : ({ s.tripCore d with fault := { (s.tripCore d).fault with closingHold := false } } : State) = v
  have hpv : v.Pends (.trip ⟨BitVec.ofNat 8 d.code.number, if d.scope = .bus then 1 else 0, d.value⟩) := by
    rw [← hv]; exact hp
  have hbv : v.mbi.bus = .active := by simpa [← hv] using hb
  have hlv : v.mbi.onLine ≠ some .trip := by simpa [← hv, Mbi.onLine] using hl
  have hreg : v.fault.register = s.fault.register := by simp [← hv]
  have hports : v.fault.portHolds = s.fault.portHolds := by simp [← hv]
  have hhold : v.fault.closingHold = false := by simp [← hv]
  have hdsg := State.waits_iff .ocDsg (Or.inl rfl) s hc v (by rw [hreg]) hports hhold
  have hcause : ∀ w : State, w.fault.register.get oc = s.fault.register.get oc → w.heldCause oc = s.heldCause oc :=
    fun w hw => by simp [State.heldCause, hw]
  have hone : (if (if d.scope = .bus then (1 : Byte) else 0) = 1 then (1 : Byte) else 0) = if d.scope = .bus then 1 else 0 := by
    split <;> simp
  have hchg : ∀ w : State, w.fault.register.get .ocChg = s.fault.register.get .ocChg →
      w.fault.portHolds = s.fault.portHolds → w.fault.closingHold = false →
      (s.WaitsForClosingHold .ocChg ↔ (w.fault.register.get .ocChg).state = .held ∧ w.isHeld .ocChg = false) :=
    fun w => State.waits_iff .ocChg (Or.inr rfl) s hc w
  rcases hoc.1 with rfl | rfl
  · have hno := hlast rfl
    have hw := State.postponedOverCurrent_trips .ocDsg v (hdsg.1 hoc).1 (hdsg.1 hoc).2 (Or.inl rfl)
    have hm := State.postponedOverCurrent_merges .ocDsg _ v (hdsg.1 hoc).1 (hdsg.1 hoc).2 (Or.inl rfl) hbv hlv hpv
    obtain ⟨_, -, hf, -⟩ := hw
    have hget : (v.postponedOverCurrent .ocDsg).fault.register.get .ocChg = s.fault.register.get .ocChg := by
      rw [hf]; simp only; rw [FaultRegister.get_set_of_ne _ _ _ _ (by decide), hreg]
    rw [State.postponedOverCurrent_of_not .ocChg _ fun hh =>
      hno ((hchg _ hget (by rw [hf]; exact hports) (by rw [hf]; exact hhold)).2 hh)]
    rw [hcause v (by rw [hreg])] at hm
    simp only [hone] at hm
    exact hm
  · by_cases hA : s.WaitsForClosingHold .ocDsg
    · have hw := State.postponedOverCurrent_trips .ocDsg v (hdsg.1 hA).1 (hdsg.1 hA).2 (Or.inl rfl)
      have hm := State.postponedOverCurrent_merges .ocDsg _ v (hdsg.1 hA).1 (hdsg.1 hA).2 (Or.inl rfl) hbv hlv hpv
      obtain ⟨_, -, hf, -⟩ := hw
      have hget : (v.postponedOverCurrent .ocDsg).fault.register.get .ocChg = s.fault.register.get .ocChg := by
        rw [hf]; simp only; rw [FaultRegister.get_set_of_ne _ _ _ _ (by decide), hreg]
      have hwait := (hchg _ hget (by rw [hf]; exact hports) (by rw [hf]; exact hhold)).1 hoc
      have hm2 := State.postponedOverCurrent_merges .ocChg _ _ hwait.1 hwait.2 (Or.inr rfl) (by simpa using hbv)
        (by simpa [Mbi.onLine] using hlv) hm
      rw [hcause _ hget] at hm2
      simp only [hone] at hm2
      exact hm2
    · rw [State.postponedOverCurrent_of_not .ocDsg v (fun hh => hA (hdsg.2 hh))]
      have hwait := (hchg v (by rw [hreg]) hports hhold).1 hoc
      have hm := State.postponedOverCurrent_merges .ocChg _ v hwait.1 hwait.2 (Or.inr rfl) hbv hlv hpv
      rw [hcause v (by rw [hreg])] at hm
      simp only [hone] at hm
      exact hm

/-- What two tripped states share when postponed over-current trips lie between them (R132, R142). -/
def State.SameTrip (s u : State) : Prop :=
  u.conn.state = s.conn.state ∧ u.fault.lockout = s.fault.lockout ∧ u.closure.lastOutcome = s.closure.lastOutcome
    ∧ u.closure.quiet = s.closure.quiet ∧ (s.closure.record = none → u.closure.record = none)

theorem State.postponedOverCurrent_sameTrip (oc : Source) (hoc : oc = .ocDsg ∨ oc = .ocChg) {s : State}
    (h : s.HasTripped) : s.SameTrip (s.postponedOverCurrent oc) := by
  by_cases hs : (s.fault.register.get oc).state = .held ∧ s.isHeld oc = false
  · obtain ⟨r, -, hf, hc, -, hcl⟩ := State.postponedOverCurrent_trips oc s hs.1 hs.2 hoc
    obtain ⟨h1, h2, h3⟩ := hcl h.2.2.1
    refine ⟨?_, by rw [hf], h1, h2, h3⟩
    rw [hc]
    rcases h.1 with h | h <;> rw [h] <;> rfl
  · rw [State.postponedOverCurrent_of_not oc s hs]
    exact ⟨rfl, rfl, rfl, rfl, id⟩

theorem State.SameTrip.trans {s u w : State} (h1 : s.SameTrip u) (h2 : u.SameTrip w) : s.SameTrip w :=
  ⟨h2.1.trans h1.1, h2.2.1.trans h1.2.1, h2.2.2.1.trans h1.2.2.1, h2.2.2.2.1.trans h1.2.2.2.1,
    fun h => h2.2.2.2.2 (h1.2.2.2.2 h)⟩

theorem State.takeTrip_sameTrip (d : TripCause) (s : State) : (s.tripCore d).SameTrip (s.takeTrip d) := by
  have ht := State.tripCore_hasTripped d s
  unfold State.takeTrip State.liftClosingHold
  (repeat' split) <;> first
    | exact ⟨rfl, rfl, rfl, rfl, id⟩
    | exact State.SameTrip.trans (u := ({ s.tripCore d with fault :=
          { (s.tripCore d).fault with closingHold := false } } : State).postponedOverCurrent .ocDsg)
        (State.SameTrip.trans (u := { s.tripCore d with fault := { (s.tripCore d).fault with closingHold := false } })
          ⟨rfl, rfl, rfl, rfl, id⟩ (State.postponedOverCurrent_sameTrip .ocDsg (Or.inl rfl) ht))
        (State.postponedOverCurrent_sameTrip .ocChg (Or.inr rfl) (State.postponedOverCurrent_hasTripped ht))

/-- Every trip is one in the sense of Safety.lean. -/
theorem State.takeTrip_takes (d : TripCause) (s : State) : s.TakesTrip d (s.takeTrip d) := by
  obtain ⟨-, h2, h3, h4, h5, h6, h7⟩ := State.tripCore_takes d s
  obtain ⟨e1, e2, e3, e4, e5⟩ := State.takeTrip_sameTrip d s
  refine ⟨State.takeTrip_hasTripped d s, e1.trans h2, e2.trans h3, fun h => e3.trans (h4 h),
    fun h => ⟨e5 (h5 h).1, e4.trans (h5 h).2⟩, ?_, ?_⟩
  · by_cases hc : s.conn.state = .closing
    · obtain ⟨-, hnone, -, -, hone, hboth⟩ := State.takeTrip_lifts d s hc
      rw [hc]
      by_cases hA : s.WaitsForClosingHold .ocDsg <;> by_cases hB : s.WaitsForClosingHold .ocChg
      · obtain ⟨hn, e, r, r1, r2, hs, he, hr, -, -⟩ := hboth hA hB
        exact ⟨e, r, [r1, r2], hs, he, hr, hn, Or.inr ⟨rfl, _, hA⟩⟩
      · obtain ⟨hn, e, r, r1, hs, he, hr, -⟩ := hone _ _ (Or.inl ⟨rfl, rfl⟩) hA hB
        exact ⟨e, r, [r1], hs, he, hr, hn, Or.inr ⟨rfl, _, hA⟩⟩
      · obtain ⟨hn, e, r, r1, hs, he, hr, -⟩ := hone _ _ (Or.inr ⟨rfl, rfl⟩) hB hA
        exact ⟨e, r, [r1], hs, he, hr, hn, Or.inr ⟨rfl, _, hB⟩⟩
      · have hno : ∀ oc, ¬ s.WaitsForClosingHold oc := fun oc hoc => by
          rcases hoc.1 with rfl | rfl
          · exact hA hoc
          · exact hB hoc
        obtain ⟨e, r, l, hs, he, hr, hn, hl⟩ := h6
        rw [hnone hno]
        rw [hc] at hr
        exact ⟨e, r, l, hs, he, hr, hn, hl.imp id fun hh => ⟨rfl, hh.2⟩⟩
    · have : s.takeTrip d = s.tripCore d := by unfold State.takeTrip; exact if_neg hc
      rw [this]
      exact h6
  · intro hb hl hk hno
    by_cases hc : s.conn.state = .closing
    · rw [(State.takeTrip_lifts d s hc).2.1 (hno hc)]
      exact h7 hb hl hk hno
    · have : s.takeTrip d = s.tripCore d := by unfold State.takeTrip; exact if_neg hc
      rw [this]
      exact h7 hb hl hk hno

/-! ## Onsets -/

/-- A trip taken in one state is a trip taken in another that agrees with it on what a trip looks at. -/
theorem State.TakesTrip.of_same {d : TripCause} {s v u : State} (h : v.TakesTrip d u) (h1 : v.conn.state = s.conn.state)
    (h2 : v.fault.lockout = s.fault.lockout) (h3 : v.closure.claim = s.closure.claim)
    (h4 : v.fault.tripCounter = s.fault.tripCounter) (h5 : v.charge = s.charge)
    (h6 : s.mbi.bus = .active → v.mbi.bus = .active ∧ v.mbi.onLine = s.mbi.onLine
      ∧ hasKind .trip v.mbi.list = hasKind .trip s.mbi.list)
    (h7 : ∀ oc, v.WaitsForClosingHold oc → s.WaitsForClosingHold oc) (h8 : v.fault.history = s.fault.history) :
    s.TakesTrip d u := by
  obtain ⟨a1, a2, a3, a4, a5, a6, a7⟩ := h
  have hsnap : v.snapshot = s.snapshot := by simp [State.snapshot, h5]
  rw [h1, h2] at a2
  rw [h2] at a3
  rw [h3] at a4
  rw [h1, h4, hsnap] at a6
  refine ⟨a1, a2, a3, a4, a5, ?_, ?_⟩
  · obtain ⟨e, r, l, hs, he, hr, hn, hl⟩ := a6
    exact ⟨e, r, l, h8 ▸ hs, he, hr, hn, hl.imp id fun ⟨hc, oc, ho⟩ => ⟨hc, oc, h7 oc ho⟩⟩
  · intro hb hl hk hno
    obtain ⟨b1, b2, b3⟩ := h6 hb
    exact a7 b1 (b2 ▸ hl) (b3 ▸ hk) fun hc oc ho => hno (h1 ▸ hc) oc (h7 oc ho)

/-- A trip stays the trip it was while the state after it goes on and keeps what the trip has left. -/
theorem State.TakesTrip.later {d : TripCause} {s u w : State} (h : s.TakesTrip d u) (h1 : w.conn.state = u.conn.state)
    (h2 : w.switches = u.switches) (h3 : w.closure.claim = u.closure.claim)
    (h4 : w.closure.lastOutcome = u.closure.lastOutcome) (h5 : w.closure.record = u.closure.record)
    (h6 : w.closure.quiet = u.closure.quiet) (h7 : w.fault.lockout = u.fault.lockout)
    (h8 : w.fault.history = u.fault.history) (h9 : w.fault.tripCounter = u.fault.tripCounter)
    (h10 : w.hasEvent .tripTaken = u.hasEvent .tripTaken) (h11 : ∀ f, f.kind ≠ .status → u.Pends f → w.Pends f) :
    s.TakesTrip d w := by
  obtain ⟨⟨b1, b2, b3, b4⟩, a2, a3, a4, a5, a6, a7⟩ := h
  refine ⟨⟨by rw [h1]; exact b1, by rw [h2]; exact b2, by rw [h3]; exact b3, by rw [h10]; exact b4⟩, by rw [h1]; exact a2,
    by rw [h7]; exact a3, fun hc => by rw [h4]; exact a4 hc, fun hd => by rw [h5, h6]; exact a5 hd, by rw [h8, h9]; exact a6,
    fun hb hl hk hno => h11 _ (by simp [Frame.kind]) (a7 hb hl hk hno)⟩

theorem Source.tripCause_eq (src : Source) (value : Half) (reported : Scope) :
    src.tripCause value reported = src.cause value reported := by
  cases src <;> rfl

theorem State.setSource_hasKind (k : FrameKind) (h : k ≠ .status) (src : Source) (x : SourceRecord) (s : State) :
    hasKind k (s.setSource src x).mbi.list = hasKind k s.mbi.list := by
  unfold State.setSource
  dsimp only
  split
  · rw [State.handStatus_hasKind _ _ h]
  · rfl

theorem State.cancelSleep_hasKind (k : FrameKind) (h : k ≠ .status) (s : State) :
    hasKind k s.cancelSleep.mbi.list = hasKind k s.mbi.list := by
  unfold State.cancelSleep
  split
  · rw [State.handStatus_hasKind _ _ h]; rfl
  · rfl

/-- A source that waits after a record is written waited before, unless the record is its own. -/
theorem State.waits_of_setSource {src oc : Source} {x : SourceRecord} {s : State} (hx : x.state ≠ .held)
    (h : (s.setSource src x).WaitsForClosingHold oc) : s.WaitsForClosingHold oc := by
  obtain ⟨h1, h2, h3, h4⟩ := h
  have ho : oc ≠ src := by
    rintro rfl
    simp [hx] at h3
  refine ⟨h1, by simpa using h2, ?_, by simpa using h4⟩
  rwa [State.setSource_register, FaultRegister.get_set_of_ne _ _ _ _ ho] at h3

/-- Writing the record of a source that becomes ACTIVE leaves what a trip looks at, but for that record. -/
theorem State.TakesTrip.of_setSource {d : TripCause} {src : Source} {x : SourceRecord} {s u : State} (hx : x.state ≠ .held)
    (h : (s.setSource src x).TakesTrip d u) : s.TakesTrip d u :=
  h.of_same (by simp) (by simp) (by simp) (by simp) (by simp)
    (fun hb => ⟨by simpa using hb, by simp [Mbi.onLine], State.setSource_hasKind .trip (by decide) src x s⟩)
    (fun _ => State.waits_of_setSource hx) (by simp)

/-- So does the cancelling of a pending sleep. -/
theorem State.TakesTrip.of_cancelSleep {d : TripCause} {s u : State} (h : s.cancelSleep.TakesTrip d u) : s.TakesTrip d u :=
  h.of_same (by simp) (by simp) (by simp) (by simp) (by simp)
    (fun hb => ⟨by simpa using hb, by simp [Mbi.onLine], State.cancelSleep_hasKind .trip (by decide) s⟩)
    (fun oc ho => by simpa [State.WaitsForClosingHold] using ho) (by simp)

/-- The action of a source other than a path source is its own trip (R127). -/
theorem State.takeAction_takes (src : Source) (value : Half) (reported : Scope) (s : State) (h : src.isPath = false) :
    s.TakesTrip (src.cause value reported) (s.takeAction src value reported) := by
  rw [← Source.tripCause_eq]
  unfold State.takeAction
  cases src <;> first | exact State.takeTrip_takes _ _ | simp [Source.isPath] at h

/-- An armed onset of a source other than a path source, and a repeated onset of a trip source, is its trip (R130). -/
theorem State.takeOnset_takes (src : Source) (value : Half) (reported : Scope) (s : State) (hp : src.isPath = false)
    (h : s.actsOn src = true ∧ (((s.fault.register.get src).state = .clear ∨ (s.fault.register.get src).state = .lapsed)
        ∧ s.isHeld src = false
      ∨ (s.fault.register.get src).state = .active ∧ src.isTrip = true)) :
    s.TakesTrip (src.cause value reported) (s.takeOnset src value reported) := by
  obtain ⟨ha, ⟨hs, hh⟩ | ⟨hs, ht⟩⟩ := h
  · have : s.takeOnset src value reported
        = ((s.setSource src ⟨.active, true, some value⟩).cancelSleep).takeAction src value reported := by
      unfold State.takeOnset
      rcases hs with hs | hs <;> simp [ha, hs, hh]
    rw [this]
    exact (State.takeAction_takes src value reported _ hp).of_cancelSleep.of_setSource (by simp)
  · have : s.takeOnset src value reported
        = (s.setSource src ⟨.active, true, some value⟩).takeAction src value reported := by
      unfold State.takeOnset
      simp [ha, hs, ht]
    rw [this]
    exact (State.takeAction_takes src value reported _ hp).of_setSource (by simp)

/-- An armed onset of a path source beside the other one ACTIVE is the PATH_CONFLICT trip (R137). -/
theorem State.takeOnset_conflict (src other : Source) (value : Half) (reported : Scope) (s : State)
    (hp : src = .modOv ∧ other = .modUv ∨ src = .modUv ∧ other = .modOv) (hc : s.committed = true)
    (hs : (s.fault.register.get src).state = .clear ∨ (s.fault.register.get src).state = .lapsed)
    (hh : s.isHeld src = false) (ho : (s.fault.register.get other).state = .active) :
    s.TakesTrip ⟨.pathConflict, src, .localOnly, value, false, false⟩ (s.takeOnset src value reported) := by
  have h1 : s.takeOnset src value reported
      = ((s.setSource src ⟨.active, true, some value⟩).cancelSleep).takeAction src value reported := by
    unfold State.takeOnset State.actsOn
    rcases hs with hs | hs <;> simp [hc, hs, hh]
  have h2 : ((s.setSource src ⟨.active, true, some value⟩).cancelSleep).isActive other = true := by
    unfold State.isActive
    rw [State.cancelSleep_register, State.setSource_register,
      FaultRegister.get_set_of_ne _ _ _ _ (by rcases hp with ⟨rfl, rfl⟩ | ⟨rfl, rfl⟩ <;> decide), ho]
    rfl
  rw [h1]
  refine State.TakesTrip.of_setSource (src := src) (x := ⟨.active, true, some value⟩) (by simp)
    (State.TakesTrip.of_cancelSleep ?_)
  rcases hp with ⟨rfl, rfl⟩ | ⟨rfl, rfl⟩
  · unfold State.takeAction
    simp only [h2, if_true]
    exact State.takeTrip_takes _ _
  · unfold State.takeAction
    simp only [h2, if_true]
    exact State.takeTrip_takes _ _

theorem State.shortCause_eq (s : State) : Source.short.cause s.shortValue s.shortScope = s.shortCause := by
  unfold State.shortCause State.shortValue State.shortScope
  cases s.meas.sample with
  | none => rfl
  | some x =>
    simp only [Sample.busLive]
    unfold ConfigRecord.deadBusCount
    by_cases h : x.vbus.toNat < 5 * fieldNat s.config.deadBus
    · have h' : ¬ fieldNat s.config.deadBus * 5 ≤ x.vbus.toNat := by omega
      simp [h, h']
    · have h' : fieldNat s.config.deadBus * 5 ≤ x.vbus.toNat := by omega
      simp [h, h']

/-- The comparator that finds the current beyond its level reports a SHORT that trips the station (R117 to R119). -/
theorem State.judgeShort_takes (current : Nat) (s : State) (h1 : s.det.shortArmed = true) (h2 : s.det.short = false)
    (h3 : shortOnsetLevel (fieldNat s.config.shortCode) < current) (hc : s.committed = true)
    (hs : s.fault.register.short.state ≠ .held) :
    s.TakesTrip s.shortCause (s.judgeShort current) := by
  rw [← State.shortCause_eq]
  unfold State.judgeShort
  rw [if_pos ⟨h1, h2, h3⟩]
  have hcases : s.fault.register.short.state = .clear ∨ s.fault.register.short.state = .lapsed
      ∨ s.fault.register.short.state = .active := by
    cases hq : s.fault.register.short.state <;> simp_all
  have := State.takeOnset_takes .short s.shortValue s.shortScope { s with det := { s.det with short := true } } rfl
    ⟨by simp [State.actsOn, hc], by
      rcases hcases with h | h | h
      · exact Or.inl ⟨Or.inl h, rfl⟩
      · exact Or.inl ⟨Or.inr h, rfl⟩
      · exact Or.inr ⟨h, rfl⟩⟩
  exact this.of_same rfl rfl rfl rfl rfl (fun hb => ⟨hb, rfl, rfl⟩) (fun _ ho => ho) rfl

/-- What an armed onset writes in the fault register (R130). -/
theorem State.takeOnset_register_armed (src : Source) (value : Half) (reported : Scope) (s : State)
    (ha : s.actsOn src = true)
    (h : ((s.fault.register.get src).state = .clear ∨ (s.fault.register.get src).state = .lapsed) ∧ s.isHeld src = false
      ∨ (s.fault.register.get src).state = .active ∧ src.isTrip = true) :
    (s.takeOnset src value reported).fault.register.get src = ⟨.active, true, some value⟩ := by
  rcases h with ⟨hs, hh⟩ | ⟨hs, ht⟩
  · have : s.takeOnset src value reported
        = ((s.setSource src ⟨.active, true, some value⟩).cancelSleep).takeAction src value reported := by
      unfold State.takeOnset
      rcases hs with hs | hs <;> simp [ha, hs, hh]
    rw [this, State.takeAction_register] <;> simp
  · have : s.takeOnset src value reported
        = (s.setSource src ⟨.active, true, some value⟩).takeAction src value reported := by
      unfold State.takeOnset
      simp [ha, hs, ht]
    rw [this, State.takeAction_register] <;> simp

/-- An onset writes no other record but those that the removal of the closing hold releases. -/
theorem State.takeOnset_register_other (src other : Source) (value : Half) (reported : Scope) (s : State) (ho : other ≠ src)
    (h : (s.fault.register.get other).state ≠ .held) :
    (s.takeOnset src value reported).fault.register.get other = s.fault.register.get other := by
  unfold State.takeOnset
  dsimp only
  (repeat' split) <;> first
    | (rw [State.takeAction_register] <;> simp [FaultRegister.get_set_of_ne _ _ _ _ ho, h])
    | simp [FaultRegister.get_set_of_ne _ _ _ _ ho]

/-- The comparator's report leaves SHORT present with its value and the condition noted (R117, R124, R130). -/
theorem State.judgeShort_reports (current : Nat) (s : State) (h1 : s.det.shortArmed = true) (h2 : s.det.short = false)
    (h3 : shortOnsetLevel (fieldNat s.config.shortCode) < current) (hc : s.committed = true)
    (hs : s.fault.register.short.state ≠ .held) :
    (s.judgeShort current).fault.register.short = ⟨.active, true, some ((s.meas.sample.map (·.vbus)).getD 0)⟩
      ∧ (s.judgeShort current).det.short = true := by
  have hcases : s.fault.register.short.state = .clear ∨ s.fault.register.short.state = .lapsed
      ∨ s.fault.register.short.state = .active := by
    cases hq : s.fault.register.short.state <;> simp_all
  unfold State.judgeShort
  rw [if_pos ⟨h1, h2, h3⟩]
  refine ⟨State.takeOnset_register_armed .short s.shortValue s.shortScope { s with det := { s.det with short := true } }
    (by simp [State.actsOn, hc]) ?_, by simp⟩
  rcases hcases with h | h | h
  · exact Or.inl ⟨Or.inl h, rfl⟩
  · exact Or.inl ⟨Or.inr h, rfl⟩
  · exact Or.inr ⟨h, rfl⟩

/-- A report of the comparator writes no other record but those that the removal of the closing hold releases. -/
theorem State.judgeShort_register_other (current : Nat) (other : Source) (s : State) (ho : other ≠ .short)
    (h : (s.fault.register.get other).state ≠ .held) :
    (s.judgeShort current).fault.register.get other = s.fault.register.get other := by
  unfold State.judgeShort
  split
  · exact State.takeOnset_register_other .short other _ _ _ ho h
  · rfl

/-! ## What a trip leaves while the MBI queues nothing -/

theorem State.queueFrame_of_not_active (f : Frame) (s : State) (h : s.mbi.bus ≠ .active) : s.queueFrame f = s := by
  unfold State.queueFrame
  rw [if_pos h]

theorem State.handStatus_of_not_active (s : State) (h : s.mbi.bus ≠ .active) : s.handStatus = s :=
  State.queueFrame_of_not_active _ s h

/-- Two states whose MBIs agree, with the restarted flag clear and the path NONE in the later one if in the earlier. -/
def State.KeepsMbi (s u : State) : Prop :=
  u.mbi = s.mbi ∧ u.closure.claim = s.closure.claim ∧ (s.conn.restarted = false → u.conn.restarted = false)
    ∧ (s.conn.path = .none → u.conn.path = .none)

theorem State.KeepsMbi.trans {s u w : State} (h1 : s.KeepsMbi u) (h2 : u.KeepsMbi w) : s.KeepsMbi w :=
  ⟨h2.1.trans h1.1, h2.2.1.trans h1.2.1, fun h => h2.2.2.1 (h1.2.2.1 h), fun h => h2.2.2.2 (h1.2.2.2 h)⟩

theorem State.handStatus_keepsMbi {s : State} (h : s.mbi.bus ≠ .active) : s.KeepsMbi s.handStatus := by
  rw [State.handStatus_of_not_active s h]
  exact ⟨rfl, rfl, id, id⟩

theorem State.setSource_keepsMbi (src : Source) (x : SourceRecord) {s : State} (h : s.mbi.bus ≠ .active) :
    s.KeepsMbi (s.setSource src x) := by
  unfold State.setSource
  dsimp only
  split
  · exact State.KeepsMbi.trans ⟨rfl, rfl, id, id⟩ (State.handStatus_keepsMbi h)
  · exact ⟨rfl, rfl, id, id⟩

theorem State.cancelSleep_keepsMbi {s : State} (h : s.mbi.bus ≠ .active) : s.KeepsMbi s.cancelSleep := by
  unfold State.cancelSleep
  split
  · exact State.KeepsMbi.trans ⟨rfl, rfl, id, id⟩ (State.handStatus_keepsMbi h)
  · exact ⟨rfl, rfl, id, id⟩

theorem State.changeConn_keepsMbi (new : ConnState) (path : Path) {s : State} (hn : new ≠ .connected)
    (h : s.mbi.bus ≠ .active) :
    s.KeepsMbi (s.changeConn new path) := by
  unfold State.changeConn
  split
  · exact ⟨rfl, rfl, id, id⟩
  · dsimp only
    refine State.KeepsMbi.trans ?_ (State.handStatus_keepsMbi h)
    exact ⟨rfl, rfl, fun hr => by simp [State.setEvent, hr], fun hp => by simp [State.setEvent, hn]⟩

theorem State.tripCore_keepsMbi (d : TripCause) {s : State} (h : s.mbi.bus ≠ .active) (hc : s.closure.claim = none) :
    s.KeepsMbi (s.tripCore d) := by
  have ha : ((s.openSwitches.recordTrip d s.conn.state).queueFrame
      (.trip ⟨BitVec.ofNat 8 d.code.code, d.scope.code, d.value⟩)).abortClaim .tripped
      = s.openSwitches.recordTrip d s.conn.state := by
    rw [State.queueFrame_of_not_active _ (s.openSwitches.recordTrip d s.conn.state) h]
    unfold State.abortClaim
    simp [State.openSwitches, State.recordTrip, hc]
  unfold State.tripCore
  dsimp only
  rw [ha]
  have hq : ∀ new : ConnState, new ≠ .connected →
      s.KeepsMbi ((s.openSwitches.recordTrip d s.conn.state).changeConn new .none) := fun new hn =>
    State.KeepsMbi.trans (u := s.openSwitches.recordTrip d s.conn.state) ⟨rfl, rfl, id, id⟩
      (State.changeConn_keepsMbi _ _ hn h)
  split
  · exact (hq _ (by split <;> decide)).trans ⟨rfl, rfl, id, id⟩
  · exact (hq _ (by split <;> decide)).trans ⟨rfl, rfl, id, id⟩

/-- A SHORT that the comparator reports outside CLOSING while the MBI queues nothing and no claim is in progress. -/
theorem State.judgeShort_keepsMbi (current : Nat) {s : State} (h : s.mbi.bus ≠ .active) (hc : s.closure.claim = none)
    (hs : s.conn.state ≠ .closing) : s.KeepsMbi (s.judgeShort current) := by
  have hact : ∀ {u : State} (v : Half) (r : Scope), u.mbi.bus ≠ .active → u.closure.claim = none → u.conn.state ≠ .closing →
      u.KeepsMbi (u.takeAction .short v r) := by
    intro u v r h1 h2 h3
    unfold State.takeAction State.takeTrip
    simp only [h3, if_false]
    exact State.tripCore_keepsMbi _ h1 h2
  unfold State.judgeShort
  split
  · refine State.KeepsMbi.trans (u := { s with det := { s.det with short := true } }) ⟨rfl, rfl, id, id⟩ ?_
    unfold State.takeOnset
    dsimp only
    have h' : ({ s with det := { s.det with short := true } } : State).mbi.bus ≠ .active := h
    have put := fun x => State.setSource_keepsMbi .short x h'
    (repeat' split) <;> first
      | exact put _
      | exact ((put _).trans ⟨rfl, rfl, id, id⟩)
      | exact ((put _).trans (State.cancelSleep_keepsMbi (by simpa using h))).trans
          (hact _ _ (by simpa using h) (by simpa using hc) (by simpa using hs))
      | exact (put _).trans (hact _ _ (by simpa using h) (by simpa using hc) (by simpa using hs))
  · exact ⟨rfl, rfl, id, id⟩

end Sys2Proof.Machine
end

