-- ==== Sys2Proof/Tests/Slice0.lean ====
section
/-! SUPPORT. The model's own tests, each a named theorem: ill-formed commands that the check refuses, frames and port bytes written out from the spec's layouts, one step of a command on a small state, and for every statement with hypotheses a state and operands that meet them. -/

namespace Sys2Proof.Tests

open Sys2Proof.Machine

set_option maxRecDepth 20000

/-! ## States -/

/-- A configuration with every required field written: 20 Ah, window 0.5 V, dead bus 12 V, bus limit 60 V. -/
def config : ConfigRecord :=
  ⟨some 200, some 50, some 1200, some 6000, some 5840, some 5760, some 4400, some 4600, some 40, some 40, some 20,
    some 1, some 70, some 60, some 1, some 2, some 1, some 4400, some 5760, some 50, some 50, none⟩

/-- A sample with module and bus at 51.2 V and no current. -/
def sample : Sample := ⟨25600, 25600, 0, 25, 7⟩

/-- A committed station 5 in ISOLATED, joined, in RUN, its MBI ACTIVE on a busy line with an empty list. -/
def on : State :=
  { State.reset with
    ownId := 5
    config := config
    committed := true
    mbi := { State.reset.mbi with bus := .active, line := .busy }
    closure := { State.reset.closure with holdOff := some 40, claimNumber := 14 }
    conn := { State.reset.conn with state := .isolated, joined := true, statusTimer := some 250, restarted := false }
    meas := { sample := some sample, cycleTimer := some 4 }
    det := { State.reset.det with shortArmed := true }
    power := { State.reset.power with check := .passed }
    port := { State.reset.port with line := .openRun } }

/-- The station in another connection state. -/
def at_ (c : ConnState) : State := { on with conn := { on.conn with state := c } }

/-- The station with a transmit list. -/
def with_ (l : List TxFrame) (s : State) : State := { s with mbi := { s.mbi with list := l } }

/-- The station with an own attempt on the line. -/
def sends (k : FrameKind) (s : State) : State := { s with mbi := { s.mbi with tx := .sending k } }

/-- The station with a peer in its Roster. -/
def knows (id : StationId) (p : PeerState) (s : State) : State :=
  { s with roster := [⟨id, { RosterEntry.fresh with state := p, age := 400 }⟩] }

/-- The station with a claim. -/
def claims (p : ClaimPhase) (s : State) : State :=
  { s with
    conn := { s.conn with state := .claiming }
    closure := { s.closure with
      claim := some ⟨25600, p⟩
      record := match p with | .queued => none | .awaiting _ _ => some ⟨5, 14, none⟩ } }

/-- The station with the record of a source. -/
def holds (src : Source) (x : SourceRecord) (s : State) : State :=
  { s with fault := { s.fault with register := s.fault.register.set src x } }

/-- The station in a phase. -/
def in_ (p : Phase) (s : State) : State := { s with power := { s.power with phase := p } }

/-- The station with a line of the port. -/
def port_ (l : PortLine) (r : Option Response) (s : State) : State :=
  { s with port := { s.port with line := l, response := r } }

/-- The station before its commit, DETACHED, with both sources of the MBI present, TEC 3 and REC 128. -/
def degraded : State :=
  let s := holds .rxDegraded ⟨.clear, true, none⟩ (holds .busSilent ⟨.clear, true, none⟩ on)
  { s with
    committed := false
    conn := { s.conn with state := .detached, joined := false }
    mbi := { s.mbi with bus := .listen, tec := 3, recCount := 128 } }

/-- The station asleep, committed, with both wake detectors armed and their run timers. -/
def asleep (line current : Nat) : State :=
  { on with
    mbi := .offState false
    det := { on.det with wakeCurrentArmed := true, wakeCurrentRun := current }
    port := { on.port with line := .released }
    power := { on.power with phase := .sleep, wakeLineArmed := true, wakeLineRun := line } }

/-- The station with a sleep pending that can be entered. -/
def sleepy : State :=
  { on with conn := { on.conn with sleepPending := true }, port := { on.port with line := .released } }

/-- The MBI OFF. -/
def off (s : State) : State := { s with mbi := .offState false }

/-- The station in SILENT. -/
def silent (s : State) : State :=
  { s with mbi := { s.mbi with bus := .silent, goodCount := 16, silenceTimer := some 0 } }

/-- The state after a command. -/
def after (c : Instr) (s : State) : State :=
  match exec c s with
  | .next t => t
  | .fault _ => s
  | .refused _ => s

/-- A STATUS from a station in CONNECTED with path BOTH. -/
def status : StatusPayload := ⟨25600, 0, 100, 25, 0x8A, 0x20⟩

/-- A frame whose check byte does not match. -/
def badFrame : RawFrame := ⟨0x85, 0, [], 0x21⟩

/-- The RELEASE of station 5 (11_frame_and_record_layouts.md, worked check bytes). -/
def goodFrame : RawFrame := ⟨0x85, 0, [], 0x20⟩

/-- A good frame of the unknown kind 2 from station 9. -/
def unknownFrame : RawFrame := ⟨0x29, 0, [], checkByte [0x29, 0x00]⟩

/-! ## Well-formedness -/

theorem test_wf_refuses_short_payload : (Instr.frameFaulty ⟨0x85, 1, [], 0x21⟩).wf = false := by decide
theorem test_wf_refuses_faulty_row_with_good_frame : (Instr.frameFaulty goodFrame).wf = false := by decide
theorem test_wf_refuses_rejected_row_with_bad_frame : (Instr.frameRejected badFrame).wf = false := by decide
theorem test_wf_refuses_rejected_row_with_long_payload : (Instr.frameRejected ⟨0x85, 0, [0], 0x20⟩).wf = false := by decide
theorem test_wf_refuses_unknown_row_with_known_kind : (Instr.unknownKindFrame goodFrame).wf = false := by decide
theorem test_wf_refuses_unknown_row_with_bad_check : (Instr.unknownKindFrame ⟨0x29, 0, [], 0⟩).wf = false := by decide
theorem test_wf_refuses_assigned_codes :
    [0x10, 0x17, 0x20, 0x2B].all (fun c => !(Instr.unknownCommand c).wf) = true := by decide
theorem test_wf_takes_unassigned_codes :
    [0x00, 0x0F, 0x18, 0x1F, 0x2C, 0xFF].all (fun c => (Instr.unknownCommand c).wf) = true := by decide
theorem test_wf_takes_frames : (Instr.frameFaulty badFrame).wf = true ∧ (Instr.frameRejected goodFrame).wf = true
    ∧ (Instr.unknownKindFrame unknownFrame).wf = true := by decide

/-! ## Frames and port bytes, written out from the layouts -/

theorem test_release_decodes : goodFrame.toCommand false = .releaseReceived 5 := by decide
theorem test_assent_decodes :
    (⟨0x55, 2, [0x09, 0x0E], 0x22⟩ : RawFrame).toCommand false = .assentReceived 5 ⟨9, 14⟩ := by decide
theorem test_assent_with_another_number_is_faulty :
    (⟨0x55, 2, [0x09, 0x0F], 0x22⟩ : RawFrame).toCommand false = .frameFaulty ⟨0x55, 2, [0x09, 0x0F], 0x22⟩ := by decide
theorem test_slot_dominant_rejects : goodFrame.toCommand true = .frameRejected goodFrame := by decide
theorem test_length_nine_is_faulty :
    (⟨0x29, 9, List.replicate 9 0, checkByte (0x29 :: 0x09 :: List.replicate 9 0)⟩ : RawFrame).faulty = true := by decide
theorem test_wrong_length_is_faulty :
    (⟨0x85, 1, [0], checkByte [0x85, 0x01, 0x00]⟩ : RawFrame).faulty = true := by decide
theorem test_trip_layout : (Frame.trip ⟨1, 1, 0x1234⟩).encode 5
    = ⟨0x15, 4, [0x01, 0x01, 0x12, 0x34], checkByte [0x15, 0x04, 0x01, 0x01, 0x12, 0x34]⟩ := by decide
theorem test_claim_layout : (Frame.claim ⟨0x6400, 14, 0x12⟩).encode 5
    = ⟨0x35, 4, [0x64, 0x00, 0x0E, 0x12], checkByte [0x35, 0x04, 0x64, 0x00, 0x0E, 0x12]⟩ := by decide
theorem test_status_fields : status.connState = .connected ∧ status.path = .both ∧ status.period = 1
    ∧ status.sleepFlag = false ∧ status.restartedFlag = false := by decide
theorem test_port_bytes :
    decodePort 0 [0x20, 0x01, 0x00, 0xC8] = some (.configWrite 1 200)
      ∧ decodePort 0 [0x26, 0x00, 0x30] = some (.setHolds 0x30)
      ∧ decodePort 0 [0x13, 0x09] = some (.rosterRead 9) ∧ decodePort 0 [0x2B] = some .serviceReset
      ∧ decodePort 0 [0x26, 0x00] = none ∧ decodePort 0 [0x30] = some (.unknownCommand 0x30) := by decide
theorem test_no_table_word : decodeTableWord 0 0 = none ∧ decodeTableWord 8 0x85 = none := by decide
theorem test_fetch_word_leaves_the_state : State.reset.withFetchWord 8 0x85 = State.reset := by decide

/-! ## One command on a small state -/

theorem test_idle_line_offers : (after (.lineIdle .alone) (with_ [⟨.release, 0⟩] on)).mbi.tx = .sending .release := by decide
theorem test_lower_rank_wins : (after (.lineIdle (.offered 0x84)) (with_ [⟨.release, 0⟩] on)).mbi.tx = .none
    ∧ (after (.lineIdle (.offered 0x86)) (with_ [⟨.release, 0⟩] on)).mbi.tx = .sending .release := by decide
theorem test_collision : (after .collisionError (sends .release (with_ [⟨.release, 0⟩] on))).mbi.tx = .collided .release := by
  decide
theorem test_sent_frame_leaves : (after .txSuccess (sends .release (with_ [⟨.release, 3⟩] on))).mbi.list = [] := by decide
theorem test_failed_attempt_counts :
    (after (.txAttemptFailed .faultFirst) (sends .release (with_ [⟨.release, 3⟩] on))).mbi.list = [⟨.release, 4⟩] := by decide
theorem test_eighth_failure_drops :
    let t := after (.txAttemptFailed .faultFirst) (sends .release (with_ [⟨.release, 7⟩] on))
    t.mbi.list = [] ∧ t.hasEvent .txDropped = true ∧ t.mbi.tec = 8 := by decide
theorem test_silence_trips :
    let t := after (.txAttemptFailed .faultFirst)
      (sends .release (with_ [⟨.release, 0⟩] { on with mbi := { on.mbi with tec := 120 } }))
    t.mbi.bus = .silent ∧ t.conn.state = .tripped ∧ t.fault.tripCounter = 1 := by decide
theorem test_faulty_frame : let t := after (.frameFaulty badFrame) on
    t.mbi.recCount = 1 ∧ t.mbi.slotDriven = true := by decide
theorem test_rejected_and_unknown_frames : (after (.frameRejected goodFrame) on).mbi.recCount = 0
    ∧ (after (.unknownKindFrame unknownFrame) (silent on)).mbi.goodCount = 16 := by decide
theorem test_status_sets_entry : (rosterGet 9 (after (.statusReceived 9 status) on).roster).map (·.announced)
    = some (some .connected) := by decide
theorem test_bus_trip_opens_the_closure : let t := after (.tripReceived 9 ⟨3, 1, 0⟩) (at_ .connected)
    t.conn.state = .isolated ∧ t.closure.quiet = some 1000 ∧ t.hasEvent .busTripFollowed = true := by decide
theorem test_claim_is_assented : let t := after (.claimReceived 9 ⟨25500, 3, 0x12⟩) on
    t.closure.record = some ⟨9, 3, some 200⟩ ∧ t.mbi.list = [⟨.assent ⟨9, 3⟩, 0⟩] := by decide
theorem test_claim_outside_window : (after (.claimReceived 9 ⟨25000, 3, 0x12⟩) on).mbi.list
    = [⟨.object ⟨9, 3, 3⟩, 0⟩] := by decide
theorem test_object_ends_claim : let t := after (.objectReceived 9 ⟨5, 14, 1⟩) (claims (.awaiting [9] 20) on)
    t.conn.state = .isolated ∧ t.closure.lastOutcome = .objected 9 .busy ∧ t.closure.holdOff = some 200 := by decide
theorem test_last_assent_closes : let t := after (.assentReceived 9 ⟨5, 14⟩) (claims (.awaiting [9] 20) on)
    t.conn.state = .closing ∧ t.switches = ⟨true, true⟩ ∧ t.conn.settle = some 50 ∧ t.fault.closingHold = true := by decide
theorem test_closed_and_abandon_clear_the_record :
    let s := { on with closure := { on.closure with record := some ⟨9, 3, some 10⟩ } }
    (after (.closedReceived 9 ⟨3, 0⟩) s).closure.record = none
      ∧ (after (.abandonReceived 9 ⟨3, 1⟩) s).closure.record = none
      ∧ (after (.abandonReceived 9 ⟨4, 1⟩) s).closure.record = some ⟨9, 3, some 10⟩
      ∧ (after (.releaseReceived 9) s).closure.record = some ⟨9, 3, some 10⟩ := by decide
theorem test_silence_ends : (after .silentExitCount (silent on)).mbi.bus = .active
    ∧ (after .silenceTimerExpiry (silent on)).mbi.bus = .active := by decide
theorem test_roster_limits : let s := knows 9 .present on
    (after (.rosterStaleLimit 9) s).roster = [⟨9, { RosterEntry.fresh with state := .stale, age := 3050 }⟩]
      ∧ (after (.rosterEmptyLimit 9) (knows 9 .stale on)).roster = [] := by decide
theorem test_hold_off_expiry_begins_a_claim : let t := after .holdOffExpiry on
    t.conn.state = .claiming ∧ t.closure.claimNumber = 15
      ∧ t.mbi.list.head? = some ⟨.claim ⟨25600, 15, 0x12⟩, 0⟩ := by decide
theorem test_claim_timeout : let t := after .claimTimerExpiry (knows 9 .present (claims (.awaiting [9] 0) on))
    t.closure.lastOutcome = .noAnswer ∧ t.hasEvent .peerStale = true := by decide
theorem test_settle_end_connects :
    let t := after .settleEnd { at_ .closing with conn := { (at_ .closing).conn with settle := some 0 } }
    t.conn.state = .connected ∧ t.conn.path = .both := by decide
theorem test_release_timer :
    (after .releaseTimerExpiry { at_ .releasing with conn := { (at_ .releasing).conn with release := some 0 } }).conn.state
      = .detached := by decide
theorem test_sample_counts : let t := after (.sampleComplete ⟨25600, 25600, 30000, 25⟩ .faultFirst) on
    t.charge.inAs = 1 ∧ t.charge.inRem = 5000 ∧ t.det.runChg = 1 := by decide
theorem test_temperature_trips : let t := after (.sampleComplete ⟨25600, 25600, 0, 70⟩ .faultFirst) (at_ .connected)
    t.conn.state = .tripped ∧ t.fault.lockout = some 10000 := by decide
theorem test_module_over_voltage_opens_charge :
    let t := after (.sampleComplete ⟨29201, 25600, 0, 25⟩ .faultFirst) (at_ .connected)
    t.conn.path = .dischargeOnly ∧ t.switches = ⟨false, true⟩ := by decide
theorem test_short_trips : (after (.shortOnset 10001) (at_ .connected)).conn.state = .tripped
    ∧ (after (.shortOnset 10000) (at_ .connected)).conn.state = .connected := by decide
theorem test_check_end :
    let s := { on with power := { on.power with check := .running } }
    let t := after (.selfCheckEnd ⟨false, true, false⟩) s
    t.power.check = .failed ∧ t.hasEvent .checkDone = true := by decide
theorem test_second_failure_tells_peers_at_the_commit_only :
    let s (commit : Bool) : State := { on with
      power := { on.power with check := .running, commitCheck := commit, checkFailed := true } }
    let t (commit : Bool) := after (.selfCheckEnd ⟨false, true, false⟩) (s commit)
    hasKind .status (t true).mbi.list = true ∧ (t false).mbi.list = [] := by decide
theorem test_sleep_entry : (after .sleepEntry sleepy).power.phase = .sleep := by decide
theorem test_wake : (after .portWake (in_ .sleep (off on))).mwkDriven = true
    ∧ (after .wakePulseEnd (in_ .wakePulse (off on))).power.phase = .powerUp
    ∧ (after (.mainDomainReady 0) (in_ .powerUp (off on))).conn.state = .isolated := by decide
theorem test_reads : (after .ident on).port.response = some ⟨.done, [87, 16, 3, 5]⟩
    ∧ (after (.rosterRead 16) on).port.response = some ⟨.refusedValue, []⟩ := by decide
theorem test_commit : let t := after (.configCommit 0) { on with
      committed := false, mbi := { on.mbi with bus := .listen }, conn := { on.conn with state := .detached } }
    t.committed = true ∧ t.mbi.bus = .active ∧ t.power.check = .running := by decide
theorem test_commit_names_the_unset_field :
    (after (.configCommit 0) { on with committed := false, config := { config with ocDetect := none } }).port.response
      = some ⟨.refusedCondition, [1, 11]⟩ := by decide
theorem test_join_and_leave : (after .join (at_ .detached)).conn.state = .isolated
    ∧ (after .leave (at_ .connected)).conn.state = .releasing := by decide
theorem test_ack_trip : (after .ackTrip (at_ .tripped)).conn.state = .isolated
    ∧ (after .ackTrip (holds .short ⟨.active, true, some 3⟩ (at_ .tripped))).port.response
      = some ⟨.refusedCondition, []⟩ := by decide
theorem test_holds : (after (.setHolds 0x0001) on).port.response = some ⟨.refusedValue, []⟩
    ∧ (after (.setHolds 0x0030) on).fault.portHolds = 0x30 := by decide
theorem test_clear_faults : (after (.clearFaults 0x0010) (holds .ocDsg ⟨.lapsed, false, none⟩ on)).fault.register
    = FaultRegister.quiet := by decide
theorem test_gates : (at_ .connected).chgGate = .off
    ∧ ({ at_ .connected with switches := ⟨true, false⟩ } : State).chgGate = .on
    ∧ ({ at_ .connected with switches := ⟨true, false⟩ } : State).dsgGate = .off
    ∧ (after .vkaLoss on).chgGate = .undriven ∧ (in_ .powerOnReset (after .vkaLoss on)).chgGate = .off
    ∧ (asleep 0 0).dsgGate = .off := by decide
theorem test_power_on_reset_takes_in_other_resets :
    after .vddLow (in_ .powerOnReset on) = in_ .powerOnReset on
      ∧ (after (.powerOnResetEnd 5) (in_ .powerOnReset on)).power.phase = .run := by decide
theorem test_one_command_in_a_transaction :
    after .join (after .ident (at_ .detached)) = after .ident (at_ .detached)
      ∧ (after .join (after .transactionBegin (after .ident (at_ .detached)))).conn.state = .isolated := by decide
theorem test_command_in_sleep_starts_the_wake : let t := after .ident (asleep 0 0)
    t.power.phase = .wakePulse ∧ t.power.latch = .port ∧ t.port.response = some ⟨.waking, []⟩ := by decide
theorem test_sdo_bytes : let s := port_ .openRun (some ⟨.done, [87, 16]⟩) on
    s.sdoByte 0x10 0 = some 0 ∧ s.sdoByte 0x10 1 = some 0 ∧ s.sdoByte 0x10 2 = some 87 ∧ s.sdoByte 0x10 3 = some 16
      ∧ s.sdoByte 0x10 4 = some 0 ∧ s.sdoByte 0x13 1 = some 0 ∧ (port_ .released none on).sdoByte 0x10 1 = none
      ∧ (port_ .openWaking (some ⟨.waking, []⟩) on).sdoByte 0x20 4 = some 4 := by decide
theorem test_wake_run : wakeRun true true 8 3 = 4 ∧ wakeRun true true 8 8 = 8 ∧ wakeRun true false 8 7 = 0
    ∧ wakeRun false true 8 3 = 3 := by decide
theorem test_wake_reports_due : (asleep 0 8).dueInSleep = []
    ∧ (asleep 1 8).dueInSleep = [.wakeLine]
    ∧ ({ asleep 0 8 with pins := ⟨false, 51⟩ } : State).dueInSleep = [.currentWake 51] := by decide
theorem test_events : let s := { on with port := { on.port with events := 5, enables := 1 } }
    s.alertLow = true ∧ (after (.eventClear 1) s).port.events = 4 ∧ (after (.eventClear 1) s).alertLow = false
      ∧ (after (.eventEnable 4) s).alertLow = true := by decide

/-! ## Witnesses: states and operands that meet the hypotheses of the statements, clause by clause -/

theorem witness_StepTakesTheFrontCommand :
    ({ on with pending := [.ident] } : State).pending = .ident :: [] := by decide
theorem witness_IdleStepTakesADueCommandOrPasses : on.pending = [] ∧ on.candidates = []
    ∧ ({ on with closure := { on.closure with holdOff := some 0 } } : State).candidates ≠ [] := by decide
theorem witness_time : let s := { on with meas := { on.meas with cycleTimer := some 3 } }
    s.power.phase = .run ∧ s.meas.cycleTimer ≠ some 4 ∧ s.power.checkTimer ≠ some 0 ∧ on.meas.cycleTimer = some 4
      ∧ (asleep 0 7).power.phase = .sleep ∧ (in_ .wakePulse (off on)).power.phase = .wakePulse
      ∧ (in_ .powerUp (off on)).power.phase = .powerUp ∧ (in_ .unpowered on).power.phase = .unpowered
      ∧ (in_ .powerOnReset on).power.phase = .powerOnReset := by decide
theorem witness_due_at_once :
    (sends .release on).mbi.tx ≠ .collided .release ∧ (after .collisionError (sends .release on)).candidates.length = 1
      ∧ sleepy.SleepStands ∧ sleepy.candidates = [.sleepEntry]
      ∧ ¬ (silent on).SleepStands ∧ (silent on).SilenceServed ∧ (silent on).candidates = [.silentExitCount]
      ∧ ¬ on.SleepStands ∧ ¬ on.SilenceServed := by
  unfold State.SleepStands State.SilenceServed
  decide
theorem witness_due_timers :
    ({ on with closure := { on.closure with record := some ⟨9, 3, some 0⟩ } } : State).candidates = [.recordExpiry]
      ∧ (claims (.awaiting [9] 0) on).candidates = [.claimTimerExpiry]
      ∧ (claims .queued on).candidates = []
      ∧ ({ on with closure := { on.closure with holdOff := some 0, quiet := some 0 } } : State).candidates
        = [.holdOffExpiry, .quietPeriodExpiry]
      ∧ ({ on with conn := { on.conn with settle := some 0, release := some 0, statusTimer := some 0 } } : State).candidates
        = [.settleEnd, .releaseTimerExpiry, .statusTimerExpiry]
      ∧ ({ on with fault := { on.fault with lockout := some 0 } } : State).candidates = [.lockoutWindowExpiry]
      ∧ ({ silent on with mbi := { (silent on).mbi with goodCount := 15 } } : State).candidates = [.silenceTimerExpiry]
      ∧ ({ in_ .wakePulse on with power := { (in_ .wakePulse on).power with pulseTimer := some 0 } } : State).candidates
        = [.wakePulseEnd]
      ∧ (in_ .wakePulse on).candidates = [] := by decide
theorem witness_PortBytesDecodeToTheCommand : (Instr.unknownCommand 0x18).wf = true
    ∧ encodePort (.unknownCommand 0x18) = some [0x18] ∧ encodePort (.setHolds 0x30) = some [0x26, 0, 0x30] := by decide
theorem witness_PowerOnStartUp : (in_ .unpowered on).power.phase = .unpowered
    ∧ (in_ .powerOnReset on).power.phase = .powerOnReset := by decide
theorem witness_PinResetStart : on.power.phase ≠ .unpowered ∧ on.power.phase ≠ .powerOnReset
    ∧ on.power.phase ≠ .pinReset ∧ (in_ .pinReset on).power.phase = .pinReset
    ∧ (50 ≤ 50 ∨ 20 ≤ 50 ∧ false = true) ∧ (50 ≤ 20 ∨ 20 ≤ 20 ∧ true = true)
    ∧ (19 < 20 ∨ 19 < 50 ∧ true = false) ∧ (49 < 20 ∨ 49 < 50 ∧ false = false) := by decide
theorem witness_SelectReleaseAndServiceReset : (on.power.phase ≠ .run ∨ on.port.resetPending = false)
    ∧ (let s := { on with port := { on.port with resetPending := true } }
       s.power.phase = .run ∧ s.port.resetPending = true) := by decide
theorem witness_ResetStartUp : (in_ .pinReset (off on)).power.phase = .pinReset
    ∧ (in_ .serviceReset (off on)).power.phase = .serviceReset ∧ (off on).mbi.permanentSilence = false
    ∧ ((off on).committed = true → 10000 ≤ shortOnsetLevel (fieldNat (off on).config.shortCode))
    ∧ (let s := { in_ .serviceReset on with mbi := .offState true }
       s.power.phase = .serviceReset ∧ s.mbi.permanentSilence = true ∧ s.committed = true
         ∧ s.fault.register.busSilent.state = .clear ∧ s.fault.portHolds.getLsbD 8 = false
         ∧ shortOnsetLevel (fieldNat s.config.shortCode) < 10001 ∧ s.fault.register.short.state ≠ .held
         ∧ ({ s with committed := false } : State).committed = false) := by decide
theorem witness_LineIdleOffersTheHead : on.power.phase = .run ∧ on.mbi.bus ≠ .off ∧ on.mbi.tx = .none
    ∧ on.mbi.bus = .active ∧ (with_ [⟨.release, 0⟩] on).mbi.list = ⟨.release, 0⟩ :: [] ∧ on.mbi.list = [] := by decide
theorem witness_HandedAndHeldFrames : (off on).mbi.bus ≠ .active ∧ on.mbi.bus = .active
    ∧ (Frame.release).kind.isOwnConnection = true ∧ (Frame.assent ⟨9, 3⟩).kind.isAnswer = true
    ∧ (sends .status on).mbi.onLine = some .status ∧ on.mbi.onLine ≠ some .status ∧ hasKind .status on.mbi.list = false
    ∧ hasKind .status (with_ [⟨.status status, 2⟩] on).mbi.list = true
    ∧ (sends .trip on).mbi.onLine = some .trip ∧ (sends .trip on).mbi.heldTrip = none
    ∧ hasKind .trip on.mbi.list = false
    ∧ (with_ [⟨.trip ⟨1, 0, 0⟩, 1⟩] on).mbi.list = [] ++ [⟨.trip ⟨1, 0, 0⟩, 1⟩] ++ []
    ∧ ({ on.mbi with heldStatus := some status, heldTrip := some ⟨1, 0, 0⟩ } : Mbi).heldTrip.isSome = true
    ∧ (let m : Mbi := { on.mbi with heldTrip := some ⟨5, 0, 3⟩ }
       m.heldTrip = some ⟨5, 0, 3⟩ ∧ hasKind .trip m.list = false ∧ m.heldStatus = none
         ∧ ({ m with list := [⟨.trip ⟨3, 1, 9⟩, 2⟩] } : Mbi).list = [] ++ [⟨.trip ⟨3, 1, 9⟩, 2⟩] ++ []
         ∧ hasKind .trip [] = false
         ∧ ({ m with list := [⟨.trip ⟨3, 1, 9⟩, 2⟩] } : Mbi).releaseHeld.list = [⟨.trip ⟨5, 1, 3⟩, 2⟩]) := by decide
theorem witness_SuccessfulTransmission : let s := sends .release (with_ [⟨.release, 3⟩] on)
    s.power.phase = .run ∧ s.mbi.tx = .sending .release ∧ FrameKind.release ≠ .claim
      ∧ findKind .release s.mbi.list = some ⟨.release, 3⟩ := by decide
theorem witness_ClaimTransmission : let s := sends .claim (with_ [⟨.claim ⟨25600, 14, 0x12⟩, 0⟩] (claims .queued on))
    s.power.phase = .run ∧ s.mbi.tx = .sending .claim
      ∧ findKind .claim s.mbi.list = some ⟨.claim ⟨25600, 14, 0x12⟩, 0⟩ ∧ s.mbi.withdrawal = none
      ∧ s.closure.claim = some ⟨25600, .queued⟩ ∧ presentSet s.roster = [] ∧ presentSet (knows 9 .present s).roster ≠ []
      ∧ s.meas.sample = some sample ∧ s.conn.state = .claiming
      ∧ ({ s.mbi with withdrawal := some .leave } : Mbi).withdrawal = some .leave
      ∧ ({ s.mbi with withdrawal := some .trip } : Mbi).withdrawal = some .trip := by decide
theorem witness_FailedAttempt :
    let s := fun n => sends .claim (with_ [⟨.claim ⟨25600, 14, 0x12⟩, n⟩] (claims .queued { on with
      mbi := { on.mbi with tec := 119 } }))
    (s 6).power.phase = .run ∧ findKind .claim (s 6).mbi.list = some ⟨.claim ⟨25600, 14, 0x12⟩, 6⟩
      ∧ (s 6).mbi.tx = .sending .claim ∧ (s 6).mbi.tec < 120 ∧ (s 6).mbi.withdrawal = none
      ∧ findKind .claim (s 7).mbi.list = some ⟨.claim ⟨25600, 14, 0x12⟩, 7⟩
      ∧ (s 7).closure.claim.isSome = true ∧ (s 7).conn.state = .claiming
      ∧ (FrameKind.release ≠ .claim ∨ (s 7).closure.claim = none)
      ∧ ({ (s 7).mbi with withdrawal := some .leave } : Mbi).withdrawal.isSome = true := by decide
theorem witness_SilenceAtTec128 :
    let s := sends .release (with_ [⟨.release, 0⟩] { on with mbi := { on.mbi with tec := 120 } })
    s.power.phase = .run ∧ s.mbi.onLine = some .release ∧ 120 ≤ s.mbi.tec ∧ s.conn.sleepPending = false
      ∧ (s.closure.claim.isSome = true → s.conn.state = .claiming) ∧ s.committed = true
      ∧ s.fault.register.busSilent.state = .clear ∧ s.fault.portHolds.getLsbD 8 = false
      ∧ ({ s.fault with portHolds := 0x100 } : FaultUnit).portHolds.getLsbD 8 = true
      ∧ (let d := port_ .released none { s with conn := { s.conn with sleepPending := true } }
         d.conn.sleepPending = true ∧ d.port.line = .released ∧ d.port.resetPending = false
           ∧ d.power.check ≠ .running ∧ d.mbi.onLine = some .release) := by decide
theorem witness_SilenceAtTec128_both_orders :
    let s := port_ .released none (sends .release (with_ [⟨.release, 0⟩] { on with
      mbi := { on.mbi with tec := 120 }, conn := { on.conn with sleepPending := true } }))
    (after (.txAttemptFailed .faultFirst) s).conn.state = .tripped
      ∧ (after (.txAttemptFailed .controllerFirst) s).power.phase = .sleep
      ∧ (after (.txAttemptFailed .controllerFirst) (port_ .openRun none s)).conn.state = .tripped := by decide
theorem witness_FaultyFrame : (Instr.frameFaulty badFrame).wf = true ∧ on.hears = true
    ∧ (({ on.mbi with recCount := 126 } : Mbi).recCount < 127) ∧ 127 ≤ ({ on.mbi with recCount := 127 } : Mbi).recCount
    ∧ (after (.frameFaulty badFrame) { on with mbi := { on.mbi with recCount := 127 } }).fault.history
      = [⟨1, .of .rxDegraded, .rxDegraded, .localOnly, .isolated, 128, 0⟩]
    ∧ on.mbi.rejectMuted = false ∧ on.fault.register.rxDegraded.state = .clear ∧ on.fault.portHolds.getLsbD 9 = false
    ∧ ({ on.fault with portHolds := 0x200 } : FaultUnit).portHolds.getLsbD 9 = true := by decide
theorem witness_ReceivingAFrame : on.hears = true ∧ (Instr.frameRejected goodFrame).wf = true
    ∧ (Instr.unknownKindFrame unknownFrame).wf = true ∧ (sends .claim on).mbi.tx = .sending .claim
    ∧ on.mbi.tx = .none ∧ on.mbi.heldStatus = none ∧ on.mbi.heldTrip = none
    ∧ ({ on.mbi with withdrawal := some .leave } : Mbi).withdrawal.isSome = true := by decide
theorem witness_AcceptedFrames : on.hears = true ∧ (9 : StationId) ≠ on.ownId ∧ rosterGet 9 on.roster = none
    ∧ (Frame.assent ⟨16, 3⟩).refreshOnly = true ∧ (Frame.assent ⟨15, 3⟩).refreshOnly = false
    ∧ (silent on).hears = true ∧ (silent on).mbi.bus = .silent ∧ (silent on).mbi.permanentSilence = false := by decide
theorem witness_DuplicateIdSilencesTheStation : on.hears = true ∧ on.fault.register.dupId.state = .clear
    ∧ on.PathSafe ∧ on.committed = true ∧ on.mbi.bus ≠ .silent ∧ on.fault.register.busSilent.state = .clear
    ∧ on.fault.portHolds.getLsbD 8 = false
    ∧ (after (.releaseReceived 5) on).fault.history = [⟨1, .of .dupId, .dupId, .localOnly, .isolated, 5, 0⟩,
      ⟨2, .of .busSilent, .busSilent, .localOnly, .lockout, 0, 0⟩] := by
  exact ⟨by decide, by decide, fun _ => by decide, by decide, by decide, by decide, by decide, by decide⟩
theorem witness_StatusAndLocalTrip : on.hears = true ∧ (9 : StationId) ≠ on.ownId
    ∧ (Frame.status status).refreshOnly = false
    ∧ (Frame.status { status with level := 200 }).refreshOnly = false
    ∧ (Frame.status { status with level := 201 }).refreshOnly = true
    ∧ (Frame.status { status with temperature := 125 }).refreshOnly = false
    ∧ (Frame.status { status with temperature := 126 }).refreshOnly = true
    ∧ (Frame.trip ⟨11, 0, 0⟩).refreshOnly = false ∧ (Frame.trip ⟨12, 0, 0⟩).refreshOnly = true := by decide
/-- CLOSING with both over-current sources HELD, and a port hold mask. -/
def holdsClosing (mask : BitVec 10) : State :=
  let s := holds .ocChg ⟨.held, true, some 5⟩ (holds .ocDsg ⟨.held, true, some 3⟩ (at_ .closing))
  { s with
    conn := { s.conn with settle := some 0 }
    fault := { s.fault with closingHold := true, portHolds := mask } }

theorem witness_BusTripReceived : (at_ .closing).hears = true ∧ (Frame.trip ⟨1, 1, 0⟩).refreshOnly = false
    ∧ (TripPayload.mk 1 1 0).scope = 1 ∧ (at_ .closing).conn.state = .closing
    ∧ (¬ (at_ .closing).WaitsForClosingHold .ocDsg ∧ ¬ (at_ .closing).WaitsForClosingHold .ocChg)
    ∧ (holdsClosing 0).WaitsForClosingHold .ocDsg ∧ (holdsClosing 0x10).WaitsForClosingHold .ocChg
    ∧ ¬ (holdsClosing 0x10).WaitsForClosingHold .ocDsg ∧ (holdsClosing 0x10).fault.portHolds.getLsbD (5 - 1) = true
    ∧ (holdsClosing 0).hears = true ∧ (claims .queued on).conn.state = .claiming ∧ (claims .queued on).closure.claim.isSome = true
    ∧ (at_ .releasing).conn.state = .releasing ∧ (at_ .lockout).conn.state = .lockout := by
  unfold State.WaitsForClosingHold
  decide
theorem witness_ClaimReceived : on.hears = true ∧ (9 : StationId) ≠ on.ownId
    ∧ (Frame.claim ⟨25600, 3, 0x35⟩).refreshOnly = false ∧ (Frame.claim ⟨25600, 3, 0x36⟩).refreshOnly = true
    ∧ (Frame.claim ⟨25600, 3, 0x40⟩).refreshOnly = true ∧ on.closure.claim = none
    ∧ answersPending (on.receiving.acceptFrame 9).mbi.list < 4 ∧ on.closure.quiet = none
    ∧ on.meas.sample = some sample
    ∧ (let s := with_ [⟨.claim ⟨25600, 14, 0x12⟩, 0⟩] (claims .queued on)
       s.conn.state = .claiming ∧ s.closure.claim = some ⟨25600, .queued⟩ ∧ s.mbi.tx = .none
         ∧ (s.mbi.list.filter fun f => decide (f.frame.kind = .claim)).length = 1 ∧ s.closure.record = none
         ∧ s.closure.quiet = none ∧ s.meas.sample = some sample ∧ answersPending s.mbi.list < 4
         ∧ ({ s.closure with record := some ⟨12, 3, some 200⟩, quiet := some 5 } : Closure).record
           = some ⟨12, 3, some 200⟩) := by decide
theorem witness_AnswersReceived : let s := claims (.awaiting [9] 20) on
    s.hears = true ∧ (9 : StationId) ≠ s.ownId ∧ s.conn.state = .claiming
      ∧ s.closure.claim = some ⟨25600, .awaiting [9] 20⟩
      ∧ s.closure.record = some ⟨s.ownId, s.closure.claimNumber, none⟩ ∧ (9 : StationId) ∈ [9]
      ∧ s.meas.sample = some sample ∧ (9 : StationId) ∈ [9, 12] ∧ (12 : StationId) ≠ 9 := by decide
theorem witness_AnswersReceived_not_awaited :
    (∀ v ids timer, (claims .queued on).closure.claim ≠ some ⟨v, .awaiting ids timer⟩)
      ∧ (∀ v ids timer, on.closure.claim ≠ some ⟨v, .awaiting ids timer⟩) :=
  ⟨fun _ _ _ => by simp [claims], fun _ _ _ => by simp [on, State.reset]⟩
theorem witness_ClosedAbandonRelease : on.hears = true ∧ (9 : StationId) ≠ on.ownId
    ∧ 1 ≤ (1 : Byte).toNat ∧ (4 : Byte).toNat ≤ 4 := by decide
theorem witness_SilenceEnds : (silent on).power.phase = .run ∧ (silent on).mbi.bus = .silent
    ∧ (silent on).mbi.permanentSilence = false ∧ 16 ≤ (silent on).mbi.goodCount
    ∧ (silent on).mbi.silenceTimer.isSome = true
    ∧ ({ (silent on).mbi with permanentSilence := true } : Mbi).permanentSilence = true := by decide
theorem witness_RosterLimits : on.power.phase = .run ∧ on.mbi.bus ≠ .off
    ∧ rosterGet 9 (knows 9 .present on).roster = some { RosterEntry.fresh with state := .present, age := 400 }
    ∧ rosterGet 9 (knows 9 .stale on).roster = some { RosterEntry.fresh with state := .stale, age := 400 } := by decide
theorem witness_RosterLimits_due :
    let aged (p : PeerState) (st : Option StatusPart) (n : Nat) : State :=
      { on with roster := [⟨9, { RosterEntry.fresh with state := p, status := st, age := n }⟩] }
    (aged .present none 3050).dueAtOnce = none ∧ ((aged .present none 3050).roster.map (·.id)).Nodup
      ∧ (aged .present none 3050).candidates = [.rosterStaleLimit 9] ∧ (aged .present none 3049).candidates = []
      ∧ (aged .present (some (.ofPayload status)) 800).candidates = [.rosterStaleLimit 9]
      ∧ (aged .present (some (.ofPayload status)) 799).candidates = [] ∧ status.period = 1
      ∧ (aged .stale none 10000).candidates = [.rosterEmptyLimit 9] ∧ (aged .stale none 9999).candidates = []
      ∧ (aged .stale (some (.ofPayload status)) 2500).candidates = [.rosterEmptyLimit 9]
      ∧ (aged .asleep none 10000).candidates = [] := by decide
theorem witness_PlainTimers : on.power.phase = .run ∧ on.closure.holdOff.isSome = true
    ∧ (ClosureRecord.mk 9 3 (some 0)).expiry.isSome = true
    ∧ ({ on.closure with quiet := some 0 } : Closure).quiet.isSome = true
    ∧ ({ on.fault with lockout := some 0 } : FaultUnit).lockout.isSome = true
    ∧ (at_ .releasing).conn.state = .releasing ∧ ({ (at_ .releasing).conn with release := some 0 } : Conn).release.isSome = true
    ∧ on.conn.statusTimer.isSome = true := by decide
theorem witness_ClaimTimeout : let s := knows 9 .present (claims (.awaiting [9] 0) on)
    s.power.phase = .run ∧ s.conn.state = .claiming ∧ s.closure.claim = some ⟨25600, .awaiting [9] 0⟩
      ∧ s.closure.record = some ⟨s.ownId, s.closure.claimNumber, none⟩ := by decide
theorem witness_SettleEnd : let s := holdsClosing 0x30
    s.power.phase = .run ∧ s.conn.state = .closing ∧ s.conn.settle.isSome = true
      ∧ (¬ s.WaitsForClosingHold .ocDsg ∧ ¬ s.WaitsForClosingHold .ocChg)
      ∧ (holdsClosing 0).WaitsForClosingHold .ocDsg ∧ (holdsClosing 0).WaitsForClosingHold .ocChg
      ∧ (holdsClosing 0x10).WaitsForClosingHold .ocChg ∧ ¬ (holdsClosing 0x10).WaitsForClosingHold .ocDsg := by
  unfold State.WaitsForClosingHold
  decide
theorem witness_samples : on.power.phase = .run ∧ on.meas.cycleTimer.isSome = true ∧ on.committed = true
    ∧ ({ on with committed := false } : State).committed = false := by decide
theorem witness_AccumulatorFollowsTheSample : min 30000 (29996 + 4) = 30000 ∧ (0 : Int).natAbs < fieldNat on.config.restCurrent
    ∧ min 22000 65535 ≤ 5 * fieldNat on.config.emptyVoltage
    ∧ 5 * fieldNat on.config.emptyVoltage < min 28800 65535
    ∧ 5 * fieldNat on.config.fullVoltage ≤ min 28800 65535 := by decide
theorem witness_OverCurrentRuns : (-4001 : Int) < -(100 * fieldNat on.config.ocDsgLimit : Nat)
    ∧ -(100 * fieldNat on.config.ocDsgLimit : Nat) ≤ (-4000 : Int)
    ∧ ((100 * fieldNat on.config.ocChgLimit : Nat) : Int) < 4001
    ∧ (4000 : Int) ≤ (100 * fieldNat on.config.ocChgLimit : Nat) ∧ on.det.ocDsg = false ∧ on.det.ocChg = false := by decide
theorem witness_ShortComparator : on.power.phase = .run ∧ on.det.shortArmed = true ∧ on.det.short = false
    ∧ 10000 < 10001 ∧ on.committed = true ∧ on.fault.register.short.state ≠ .held
    ∧ (let s := holds .short ⟨.active, true, some 3⟩ { on with det := { on.det with short := true } }
       s.det.short = true ∧ 2 * 4999 < 10000 ∧ 10000 ≤ 2 * 5000 ∧ s.fault.register.short.state = .active) := by decide
theorem witness_SelfCheckEnds : let s := { on with power := { on.power with check := .running } }
    s.power.phase = .run ∧ s.power.check = .running ∧ s.power.wakeCheck = false ∧ s.power.commitCheck = false
      ∧ ({ s.power with commitCheck := true, checkFailed := true } : Power).commitCheck = true := by decide
theorem witness_SleepEntryKeepsTheKeepAliveDomain : let s := sleepy
    s.power.phase = .run ∧ s.conn.sleepPending = true ∧ s.mbi.list = [] ∧ s.port.line = .released
      ∧ s.port.resetPending = false ∧ s.power.check ≠ .running := by decide
theorem witness_WakeSources :
    let s := { in_ .sleep (off on) with
      det := { on.det with wakeCurrentArmed := true }
      power := { on.power with phase := .sleep, wakeLineArmed := true } }
    s.power.phase = .sleep ∧ s.power.wakeLineArmed = true ∧ s.det.wakeCurrentArmed = true
      ∧ fieldNat s.config.wakeCurrent < 51 ∧ (in_ .wakePulse on).power.phase = .wakePulse ∧ on.power.phase = .run
      ∧ (in_ .pinReset on).power.phase = .pinReset := by decide
theorem witness_WakeSequence :
    let s := { off on with power := { on.power with check := .running, wakeCheck := true } }
    (in_ .wakePulse on).power.phase = .wakePulse ∧ (in_ .powerUp (off on)).power.phase = .powerUp
      ∧ (in_ .powerUp (off on)).mbi.bus = .off
      ∧ ((off on).committed = true → 10000 ≤ shortOnsetLevel (fieldNat (off on).config.shortCode))
      ∧ s.power.phase = .run ∧ s.power.check = .running ∧ s.power.wakeCheck = true ∧ s.mbi.bus = .off
      ∧ s.mbi.permanentSilence = false ∧ s.mbi.tx = .none ∧ (off on).committed = true
      ∧ shortOnsetLevel (fieldNat (off on).config.shortCode) < 10001 ∧ (off on).fault.register.short.state ≠ .held := by
  decide
theorem witness_port_judges : on.PortJudges := ⟨by decide, by decide, by decide⟩
theorem witness_TakesRequests : on.TakesRequests := ⟨witness_port_judges, by decide⟩
theorem witness_Reads : (15 : Byte).toNat < 16 ∧ 16 ≤ (16 : Byte).toNat
    ∧ encodePort (.rosterRead 9) = some (0x13 :: [0x09]) ∧ encodePort .ident = some (0x10 :: [])
    ∧ (port_ .released none on).port.line = .released ∧ (port_ .openRun none on).port.response = none
    ∧ (port_ .openWaking (some ⟨.waking, []⟩) on).port.response = some ⟨.waking, []⟩ := by decide
theorem witness_RequestsNotJudged : ({ on with power := { on.power with check := .running } } : State).power.check = .running
    ∧ (Instr.unknownCommand 0x18).wf = true ∧ Instr.join.wf = true ∧ encodePort .join = some [0x22]
    ∧ (port_ .openWaking none on).port.response = none ∧ on.power.phase = .run
    ∧ (port_ .openReset none on).port.line = .openReset
    ∧ (in_ .pinReset on).port.line ≠ .released ∧ (in_ .pinReset on).power.phase = .pinReset
    ∧ (port_ .openRun (some ⟨.done, []⟩) on).port.response.isSome = true
    ∧ (asleep 0 0).port.line = .released ∧ (asleep 0 0).power.phase = .sleep
    ∧ after .transactionBegin (port_ .released none on) = on := by decide
theorem witness_ConfigWrite : on.committed = true ∧ ({ on with committed := false } : State).committed = false
    ∧ fieldAccepts 1 0 = false ∧ fieldAccepts 1 1 = true ∧ fieldAccepts 1 65535 = true
    ∧ fieldAccepts 11 8 = true ∧ fieldAccepts 11 10 = false ∧ fieldAccepts 11 1020 = true ∧ fieldAccepts 11 1024 = false
    ∧ fieldAccepts 22 200 = true ∧ fieldAccepts 22 201 = false ∧ fieldAccepts 22 255 = true
    ∧ fieldAccepts 13 0xFFC4 = true ∧ fieldAccepts 13 0xFFC3 = false ∧ 22 < (23 : Byte).toNat
    ∧ 1 ≤ 1 ∧ 22 ≤ 22 := by decide
theorem witness_ConfigCommit : config.commitFailure = none
    ∧ ({ config with ovRelease := some 5840 } : ConfigRecord).commitFailure = some (.refusedValue, 2, 6)
    ∧ ({ config with settleCode := some 6 } : ConfigRecord).commitFailure = some (.refusedValue, 8, 16)
    ∧ ConfigRecord.unset.commitFailure = some (.refusedCondition, 1, 1)
    ∧ on.fault.register.busSilent.present = false ∧ on.fault.register.rxDegraded.present = false
    ∧ 10000 ≤ shortOnsetLevel (fieldNat on.config.shortCode)
    ∧ ({ config with initialLevel := some 200 } : ConfigRecord).initialLevel = some 200
    ∧ (let s := degraded
       s.committed = false ∧ s.config.commitFailure = none ∧ s.fault.register.busSilent.state = .clear
         ∧ s.fault.register.busSilent.present = true ∧ s.fault.register.rxDegraded.state = .clear
         ∧ s.fault.register.rxDegraded.present = true ∧ s.fault.portHolds.getLsbD 8 = false
         ∧ s.fault.portHolds.getLsbD 9 = false ∧ s.fault.register.short.state ≠ .held
         ∧ shortOnsetLevel (fieldNat s.config.shortCode) < 10001) := by decide
theorem witness_ConfigCommit_tests : (∃ f ∈ ConfigRecord.unset.required, f = none)
    ∧ (∀ f ∈ config.required, f ≠ none) := by
  simp [ConfigRecord.required, ConfigRecord.unset, config]
theorem witness_JoinAndLeave : (at_ .detached).committed = true ∧ (at_ .detached).conn.state = .detached
    ∧ on.conn.state ≠ .detached ∧ on.conn.state = .isolated ∧ (claims .queued on).conn.state = .claiming
    ∧ (claims (.awaiting [9] 3) on).closure.claim = some ⟨25600, .awaiting [9] 3⟩
    ∧ (sends .claim (claims .queued on)).mbi.onLine = some .claim ∧ (claims .queued on).mbi.onLine ≠ some .claim
    ∧ (at_ .closing).conn.state = .closing ∧ ¬ (at_ .closing).WaitsForClosingHold .ocDsg
    ∧ (holdsClosing 0).conn.state = .closing ∧ (holdsClosing 0).WaitsForClosingHold .ocDsg
    ∧ ¬ (holdsClosing 0x30).WaitsForClosingHold .ocDsg
    ∧ (at_ .connected).conn.state = .connected ∧ (at_ .lockout).conn.state = .lockout
    ∧ ({ (at_ .detached).conn with sleepPending := true } : Conn).sleepPending = true := by
  unfold State.WaitsForClosingHold
  decide
theorem witness_SleepCheckServiceReset : on.conn.state = .isolated ∧ (∀ src, (on.fault.register.get src).state ≠ .active)
    ∧ on.conn.sleepPending = false
    ∧ (∃ src, ((holds .ocDsg ⟨.active, true, none⟩ on).fault.register.get src).state = .active)
    ∧ ¬ ((at_ .connected).conn.state = .detached ∨ (at_ .connected).conn.state = .isolated) := by
  refine ⟨by decide, fun src => ?_, by decide, ⟨.ocDsg, by decide⟩, by decide⟩
  cases src <;> decide
theorem witness_TripAcknowledgement : on.conn.state ≠ .tripped ∧ (at_ .tripped).conn.state = .tripped
    ∧ (at_ .tripped).tripStands = false ∧ (holds .short ⟨.active, true, some 3⟩ (at_ .tripped)).tripStands = true
    ∧ (holds .modUv ⟨.active, false, none⟩ (holds .modOv ⟨.active, false, none⟩ (at_ .tripped))).tripStands = true := by decide
theorem witness_HoldsAndFaults : let s := holds .busSilent ⟨.held, true, some 3⟩ on
    ({ on with committed := false } : State).committed = false ∧ on.committed = true
      ∧ (0x0008 : Half).extractLsb' 0 4 ≠ 0 ∧ (0x0030 : Half).extractLsb' 0 4 = 0
      ∧ s.fault.register.busSilent.state = .held ∧ (0x0030 : Half).getLsbD 8 = false
      ∧ (0x0100 : Half).getLsbD 8 = true ∧ (0x0100 : Half).extractLsb' 0 4 = 0 := by decide
theorem witness_HoldsAndFaults_postponed (src : Source) (h : src.classB = true) :
    let s := holds src ⟨.held, true, some 3⟩ on
    (s.fault.register.get src).state = .held ∧ (0 : Half).getLsbD (src.code - 1) = false
      ∧ s.fault.closingHold = false ∧ ∀ other, other ≠ src → (s.fault.register.get other).state ≠ .held := by
  cases src <;> first | exact absurd h (by decide) | exact ⟨by decide, by decide, by decide, fun other ho => by cases other <;> first | exact absurd rfl ho | decide⟩
theorem witness_HoldsAndFaults_opposite :
    let s := holds .modUv ⟨.active, true, some 9⟩ (holds .modOv ⟨.held, true, some 3⟩ on)
    (s.fault.register.get .modUv).state = .active ∧ (s.fault.register.get .modOv).state = .held := by decide
theorem witness_ClearanceTable : ((holds .ocDsg ⟨.held, true, none⟩ on).fault.register.get .ocDsg).state = .held
    ∧ ((holds .modOv ⟨.active, true, none⟩ on).fault.register.get .modOv).state = .active ∧ Source.modOv.isPath = true
    ∧ ((holds .short ⟨.active, true, none⟩ on).fault.register.get .short).state = .active ∧ Source.short.isPath = false
    ∧ (on.fault.register.get .short).state = .clear ∧ (at_ .connected).conn.state = .connected := by decide
theorem witness_OnsetTable : ({ on with committed := false } : State).committed = false
    ∧ (on.fault.register.get .ocDsg).state = .clear ∧ on.isHeld .ocDsg = false
    ∧ ({ on with fault := { on.fault with portHolds := 0x10 } } : State).isHeld .ocDsg = true
    ∧ ((holds .short ⟨.active, false, none⟩ on).fault.register.get .short).state = .active ∧ Source.short.isTrip = true
    ∧ ((holds .dupId ⟨.active, true, none⟩ on).fault.register.get .dupId).present = true
    ∧ Source.modOv.isPath = true ∧ Source.modUv.isPath = true ∧ Source.modUv ≠ .modOv
    ∧ ((holds .modUv ⟨.active, true, none⟩ on).fault.register.get .modUv).state = .active
    ∧ Source.busOv.isTrip = true ∧ Source.tempTrip.isTrip = true ∧ (on.fault.register.get .busOv).state = .clear
    ∧ on.isHeld .busOv = false ∧ ((holds .tempTrip ⟨.active, true, none⟩ on).fault.register.get .tempTrip).state = .active := by
  decide
theorem witness_OnsetTable_trips :
    (let t := on.takeOnset .busOv 30001 .localOnly
     t.conn.state = .tripped ∧ t.closure.quiet = some 1000 ∧ t.fault.lockout = some 10000
       ∧ t.fault.history = [⟨1, .of .busOv, .busOv, .bus, .isolated, 30001, 0⟩]
       ∧ (⟨.trip ⟨3, 1, 30001⟩, 0⟩ : TxFrame) ∈ t.mbi.list)
    ∧ ((holds .tempTrip ⟨.active, false, none⟩ (at_ .tripped)).takeOnset .tempTrip 71 .localOnly).fault.lockout
      = some 10000
    ∧ (on.takeOnset .dupId 5 .localOnly).conn.state = .lockout
    ∧ ((holds .modOv ⟨.active, true, none⟩ on).takeOnset .modUv 9 .localOnly).fault.history
      = [⟨1, .pathConflict, .modUv, .localOnly, .isolated, 9, 0⟩] := by decide
theorem witness_TripProcedure : on.mbi.bus = .active ∧ (claims .queued on).closure.claim.isSome = true
    ∧ on.fault.tripCounter < 65535 ∧ (Source.busOv.tripCause 3 .localOnly).scope = .bus
    ∧ (Source.ocDsg.tripCause 3 .localOnly).scope = .localOnly
    ∧ on.mbi.onLine ≠ some .trip ∧ hasKind .trip on.mbi.list = false
    ∧ (with_ [⟨.trip ⟨1, 0, 0⟩, 1⟩] on).mbi.list = [] ++ [⟨.trip ⟨1, 0, 0⟩, 1⟩] ++ []
    ∧ (sends .trip on).mbi.onLine = some .trip ∧ (sends .trip on).mbi.heldTrip = none
    ∧ ({ (sends .trip on).mbi with heldTrip := some ⟨1, 1, 0⟩ } : Mbi).heldTrip = some ⟨1, 1, 0⟩
    ∧ on.conn.state ≠ .closing ∧ (holdsClosing 0).conn.state = .closing := by decide
theorem witness_TripProcedure_closing_hold : (holdsClosing 0).WaitsForClosingHold .ocDsg
    ∧ (holdsClosing 0).WaitsForClosingHold .ocChg ∧ (holdsClosing 0x10).WaitsForClosingHold .ocChg
    ∧ ¬ (holdsClosing 0x10).WaitsForClosingHold .ocDsg ∧ ¬ (holdsClosing 0x30).WaitsForClosingHold .ocChg := by
  unfold State.WaitsForClosingHold
  decide
theorem test_trip_in_closing_lifts_the_hold :
    let t := (holdsClosing 0).takeTrip (Source.tempTrip.cause 70 .localOnly)
    t.fault.closingHold = false ∧ t.fault.tripCounter = 3
      ∧ t.fault.history = [⟨1, .of .tempTrip, .tempTrip, .localOnly, .closing, 70, 0⟩,
        ⟨2, .of .ocDsg, .ocDsg, .localOnly, .tripped, 3, 0⟩, ⟨3, .of .ocChg, .ocChg, .localOnly, .tripped, 5, 0⟩]
      ∧ ((holdsClosing 0x10).takeTrip (Source.tempTrip.cause 70 .localOnly)).fault.tripCounter = 2
      ∧ ((holdsClosing 0x30).takeTrip (Source.tempTrip.cause 70 .localOnly)).fault.tripCounter = 1 := by decide
theorem test_commit_takes_standing_sources : let t := after (.configCommit 10001) degraded
    t.conn.state = .tripped ∧ t.power.check = .running ∧ t.fault.history.map (·.code)
      = [.of .busSilent, .of .rxDegraded, .of .short] ∧ t.fault.history.map (·.value) = [3, 128, 25600] := by decide
theorem test_start_up_with_a_short :
    let t := after (.pinResetEnd 5 10001) (in_ .pinReset (off (at_ .detached)))
    let w := after (.serviceResetEnd 10001) { in_ .serviceReset (at_ .lockout) with mbi := .offState true }
    let m := after (.mainDomainReady 10001) (in_ .powerUp (off on))
    t.conn.state = .tripped ∧ t.conn.restarted = false ∧ t.power.check = .running ∧ t.det.short = true
      ∧ (⟨.trip ⟨1, 0, 25600⟩, 0⟩ : TxFrame) ∈ t.mbi.list ∧ hasKind .status t.mbi.list = true
      ∧ w.conn.state = .lockout ∧ w.fault.history.map (·.code) = [.of .busSilent, .of .short] ∧ w.conn.restarted = false
      ∧ m.conn.state = .tripped ∧ m.mbi = (off on).mbi ∧ m.fault.tripCounter = 1 := by decide
/-- The station without a hold-off. -/
def free : State := { on with closure := { on.closure with holdOff := none } }

/-- The station without a hold-off, on a dead bus beside a peer that announces CONNECTED. -/
def conflict : State :=
  { free with
    meas := { on.meas with sample := some { sample with vbus := 0 } }
    roster := [⟨9, { RosterEntry.fresh with announced := some .connected }⟩] }

theorem witness_EligibilityTest : free.Eligible ∧ free.meas.sample = some sample ∧ ¬ on.MayClaim
    ∧ conflict.SenseConflict ∧ on.closure.holdOff.isSome = true ∧ on.power.phase = .run ∧ on.closure.claim = none
    ∧ (after .holdOffExpiry on).closure.claim ≠ none := by
  refine ⟨⟨?_, sample, rfl, ?_, ?_⟩, rfl, ?_, ⟨?_, ?_, _, rfl, ?_⟩, rfl, rfl, rfl, ?_⟩
  all_goals first | unfold State.MayClaim; decide | unfold State.PeerAnnounces; decide | decide
theorem witness_EligibilityTest_neither : ¬ on.Eligible ∧ ¬ on.SenseConflict :=
  ⟨fun h => witness_EligibilityTest.2.2.1 h.1, fun h => witness_EligibilityTest.2.2.1 h.1⟩
theorem witness_invariants : State.reset.SwitchesSafe ∧ State.reset.PathSafe ∧ State.reset.CountsBounded
    ∧ State.reset.OffOutsideRun ∧ step State.reset = .next State.reset.passTime := by
  refine ⟨fun h => ?_, fun _ => rfl, ⟨by decide, by decide, by decide⟩, fun h => absurd rfl h, by rfl⟩
  exact absurd h (by decide)

end Sys2Proof.Tests
end

section
/-! PROOF. A clearance by the state of its source (R131): the record and the Fault Unit that it leaves, and the switches and the path that follow a path source. -/

namespace Sys2Proof.Machine

/-! ## The switches and the path that follow the path sources -/

theorem State.pathSwitches_eq (s : State) :
    s.pathSwitches = { chg := decide (s.fault.register.modOv.state ≠ .active),
                       dsg := decide (s.fault.register.modUv.state ≠ .active) } := by
  simp only [State.pathSwitches, State.isActive, ne_eq, decide_not]
  rfl

theorem State.sourcePath_eq (s : State) :
    s.sourcePath = if s.fault.register.modOv.state = .active then .dischargeOnly
      else if s.fault.register.modUv.state = .active then .chargeOnly else .both := by
  simp only [State.sourcePath, State.isActive, decide_eq_true_eq]
  rfl

/-- In CLOSING and CONNECTED the switches stand as the path sources leave them (R81, R136). -/
theorem State.followPathSources_switches {s : State} (h : s.conn.state = .closing ∨ s.conn.state = .connected) :
    s.followPathSources.switches = s.pathSwitches := by
  unfold State.followPathSources
  rcases h with h | h
  · simp [h]
  · simp only [h]
    split <;> simp

/-- In CONNECTED the path stands as the path sources leave it (R81). -/
theorem State.followPathSources_path {s : State} (h : s.conn.state = .connected) :
    s.followPathSources.conn.path = s.sourcePath := by
  unfold State.followPathSources
  simp only [h]
  split <;> simp

/-! ## The record of the source -/

/-- The record of a source as a clearance leaves it, by its state and whether it is a path source (R131). -/
def SourceRecord.afterClearance (isPath : Bool) (x : SourceRecord) : SourceRecord :=
  match x.state with
  | .held => ⟨.lapsed, false, none⟩
  | .active => if isPath then ⟨.clear, false, none⟩ else { x with present := false }
  | .clear | .lapsed => { x with present := false }

theorem SourceRecord.afterClearance_of_held {x : SourceRecord} (isPath : Bool) (h : x.state = .held) :
    x.afterClearance isPath = ⟨.lapsed, false, none⟩ := by simp [afterClearance, h]

theorem SourceRecord.afterClearance_of_active_path {x : SourceRecord} (h : x.state = .active) :
    x.afterClearance true = ⟨.clear, false, none⟩ := by simp [afterClearance, h]

theorem SourceRecord.afterClearance_of_active {x : SourceRecord} (h : x.state = .active) :
    x.afterClearance false = { x with present := false } := by simp [afterClearance, h]

theorem SourceRecord.afterClearance_of_clear {x : SourceRecord} (isPath : Bool) (h : x.state = .clear) :
    x.afterClearance isPath = { x with present := false } := by simp [afterClearance, h]

/-! ## The clearance -/

/-- Writing the record of a source changes nothing else in the Fault Unit. -/
theorem State.setSource_fault (src : Source) (x : SourceRecord) (s : State) :
    (s.setSource src x).fault = { s.fault with register := s.fault.register.set src x } := by
  unfold State.setSource
  dsimp only
  split <;> simp

/-- A clearance changes one record of the Fault Unit, that of its source. -/
theorem State.takeClearance_fault (src : Source) (s : State) :
    (s.takeClearance src).fault = { s.fault with
      register := s.fault.register.set src ((s.fault.register.get src).afterClearance src.isPath) } := by
  cases hx : (s.fault.register.get src).state with
  | held | clear | lapsed =>
    simp [State.takeClearance, SourceRecord.afterClearance, hx, State.setSource_fault]
  | active =>
    cases hp : src.isPath <;>
      simp [State.takeClearance, SourceRecord.afterClearance, hx, hp, State.setSource_fault]

theorem State.takeClearance_register_self (src : Source) (s : State) :
    (s.takeClearance src).fault.register.get src = (s.fault.register.get src).afterClearance src.isPath := by
  simp [State.takeClearance_fault]

theorem State.takeClearance_register_other {src other : Source} (s : State) (ho : other ≠ src) :
    (s.takeClearance src).fault.register.get other = s.fault.register.get other := by
  simp [State.takeClearance_fault, FaultRegister.get_set_of_ne _ _ _ _ ho]

theorem State.takeClearance_of_active_path {src : Source} {s : State}
    (hx : (s.fault.register.get src).state = .active) (hp : src.isPath = true) :
    s.takeClearance src = (s.setSource src ⟨.clear, false, none⟩).followPathSources := by
  simp [State.takeClearance, hx, hp]

/-- The switches of CLOSING and CONNECTED follow the path sources after the clearance of an ACTIVE one (R131, R136). -/
theorem State.takeClearance_switches {src : Source} {s : State} (hx : (s.fault.register.get src).state = .active)
    (hp : src.isPath = true) (hc : s.conn.state = .closing ∨ s.conn.state = .connected) :
    (s.takeClearance src).switches
      = { chg := decide ((s.takeClearance src).fault.register.modOv.state ≠ .active),
          dsg := decide ((s.takeClearance src).fault.register.modUv.state ≠ .active) } := by
  rw [State.takeClearance_of_active_path hx hp, State.followPathSources_switches (by simpa using hc),
    State.followPathSources_fault, State.pathSwitches_eq]

/-- The path of CONNECTED follows the path sources after the clearance of an ACTIVE one (R81, R131). -/
theorem State.takeClearance_path {src : Source} {s : State} (hx : (s.fault.register.get src).state = .active)
    (hp : src.isPath = true) (hc : s.conn.state = .connected) :
    (s.takeClearance src).conn.path
      = if (s.takeClearance src).fault.register.modOv.state = .active then .dischargeOnly
        else if (s.takeClearance src).fault.register.modUv.state = .active then .chargeOnly else .both := by
  rw [State.takeClearance_of_active_path hx hp, State.followPathSources_path (by simpa using hc),
    State.followPathSources_fault, State.sourcePath_eq]

/-- Settles O52: each row of the table is the record after the clearance, and the rest is the frame of `takeClearance`. -/
theorem clearanceTable : Obligations.ClearanceTable := by
  intro src s x u
  have hself : u.fault.register.get src = x.afterClearance src.isPath := State.takeClearance_register_self src s
  refine ⟨fun hx => ?held, fun hx hp => ⟨?path, State.takeClearance_switches hx hp, State.takeClearance_path hx hp⟩,
    fun hx hp => ?trip, fun hx => ?clear, fun other ho => State.takeClearance_register_other s ho, ?fault, ?frame⟩
  case held => rw [hself, SourceRecord.afterClearance_of_held _ hx]
  case path => rw [hself, hp, SourceRecord.afterClearance_of_active_path hx]
  case trip => rw [hself, hp, SourceRecord.afterClearance_of_active hx]
  case clear => rw [hself, SourceRecord.afterClearance_of_clear _ hx]
  case fault => simp [u, State.takeClearance_fault]
  case frame => simp [u]

end Sys2Proof.Machine
end

section
/-! PROOF. The event status and the enables at the port (R186 to R188): what EVENT_CLEAR and EVENT_ENABLE write, and when ALERT is low. -/

namespace Sys2Proof.Machine

/-! ## The events and their positions (R185) -/

theorem Event.number_lt (e : Event) : e.number < 14 := by
  cases e <;> decide

/-- Every position of the event status is that of an event. -/
theorem Event.exists_number : ∀ n < 14, ∃ e : Event, e.number = n
  | 0, _ => ⟨.stateChange, rfl⟩
  | 1, _ => ⟨.busSenseConflict, rfl⟩
  | 2, _ => ⟨.tripTaken, rfl⟩
  | 3, _ => ⟨.busTripFollowed, rfl⟩
  | 4, _ => ⟨.claimAbandoned, rfl⟩
  | 5, _ => ⟨.peerArrived, rfl⟩
  | 6, _ => ⟨.peerStale, rfl⟩
  | 7, _ => ⟨.peerLost, rfl⟩
  | 8, _ => ⟨.heldFault, rfl⟩
  | 9, _ => ⟨.txDropped, rfl⟩
  | 10, _ => ⟨.answerDropped, rfl⟩
  | 11, _ => ⟨.checkDone, rfl⟩
  | 12, _ => ⟨.sleepCancelled, rfl⟩
  | 13, _ => ⟨.levelRecal, rfl⟩
  | _ + 14, h => by omega

/-- A mask of the port has at an event's position the bit that was sent. -/
theorem Event.getLsbD_mask (e : Event) (mask : Half) :
    (mask.setWidth 14).getLsbD e.number = mask.getLsbD e.number := by
  simp [e.number_lt]

/-! ## ALERT (R188) -/

/-- A word of event bits is not 0 exactly where it has the bit of some event. -/
theorem Event.ne_zero_iff (w : BitVec 14) : w ≠ 0 ↔ ∃ e : Event, w.getLsbD e.number = true := by
  constructor
  · intro h
    by_contra! hnone
    refine h (BitVec.eq_of_getLsbD_eq fun n hn => ?_)
    obtain ⟨e, rfl⟩ := Event.exists_number n hn
    simpa using hnone e
  · rintro ⟨e, he⟩ rfl
    simp at he

/-- ALERT is low exactly while an event is both set and enabled (R188). -/
theorem State.alertLow_iff (s : State) :
    s.alertLow = true ↔ ∃ e : Event, s.hasEvent e = true ∧ s.port.enables.getLsbD e.number = true := by
  simp only [State.alertLow, decide_eq_true_eq, Event.ne_zero_iff, BitVec.getLsbD_and, Bool.and_eq_true, State.hasEvent]

/-! ## The two commands -/

/-- The state after an EVENT_CLEAR that is judged: the events without those of the mask, and the copy in the response. -/
def State.eventsCleared (mask : Half) (s : State) : State :=
  { s with port := { s.port with
      events := s.port.events &&& ~~~(mask.setWidth 14)
      response := some ⟨.done, [hiByte (s.port.events.setWidth 16), loByte (s.port.events.setWidth 16)]⟩ } }

/-- The state after an EVENT_ENABLE that is judged. -/
def State.eventsEnabled (mask : Half) (s : State) : State :=
  { s with port := { s.port with enables := mask.setWidth 14, response := some ⟨.done, []⟩ } }

theorem exec_eventClear (mask : Half) {s : State} (h : s.PortJudges) :
    exec (.eventClear mask) s = .next (s.eventsCleared mask) := by
  rw [exec, execEventClear, portAnswered_of_judged s _ h]
  rfl

theorem exec_eventEnable (mask : Half) {s : State} (h : s.PortJudges) :
    exec (.eventEnable mask) s = .next (s.eventsEnabled mask) := by
  rw [exec, execEventEnable, portAnswered_of_judged s _ h]
  rfl

theorem State.eventsCleared_hasEvent (mask : Half) (s : State) (e : Event) :
    (s.eventsCleared mask).hasEvent e = (s.hasEvent e && !mask.getLsbD e.number) := by
  simp [State.hasEvent, State.eventsCleared, e.number_lt]

/-- Settles O43: the state after the command is written out once, and each event is read from its bit. -/
theorem eventClear : Obligations.EventClear := by
  intro mask s h
  exact ⟨s.eventsCleared mask, exec_eventClear mask h, rfl, s.eventsCleared_hasEvent mask⟩

/-- Settles O44: ALERT by `alertLow_iff`, read on the enables just written and the events as they were. -/
theorem eventEnable : Obligations.EventEnable := by
  intro mask s h
  have henables (e : Event) : (s.eventsEnabled mask).port.enables.getLsbD e.number = mask.getLsbD e.number :=
    e.getLsbD_mask mask
  have hevents (e : Event) : (s.eventsEnabled mask).hasEvent e = s.hasEvent e := rfl
  refine ⟨s.eventsEnabled mask, exec_eventEnable mask h, rfl, henables, hevents, ?_⟩
  simp only [State.alertLow_iff, henables, hevents]

end Sys2Proof.Machine
end

section
/-! PROOF. IDENT and the own id (R165, R183): the response, the straps read at the end of a power-on or pin reset, and that every other command of a powered part leaves the id as it is held. -/

namespace Sys2Proof.Machine

/-! ## Answers with a given own id

One rule for each of the ways in which a command is taken and ends. -/

/-- Every next state of the answer holds the given own id. -/
def HoldsId (id : StationId) (a : Answer) : Prop := ∀ t, a = .next t → t.ownId = id

@[simp] theorem holdsId_next (id : StationId) (s : State) : HoldsId id (.next s) ↔ s.ownId = id :=
  ⟨fun h => h s rfl, fun h t ht => by cases ht; exact h⟩

@[simp] theorem holdsId_conclude (id : StationId) (before s : State) : HoldsId id (conclude before s) ↔ s.ownId = id := by
  simp [conclude]

theorem inRun_holdsId {s : State} {effect : State → Answer} (h : HoldsId s.ownId (effect s)) :
    HoldsId s.ownId (inRun s effect) := by
  unfold inRun
  split
  · exact h
  · simp

theorem heard_holdsId {s : State} {effect : State → State} (h : ∀ u, (effect u).ownId = u.ownId) :
    HoldsId s.ownId (heard s effect) := by
  unfold heard
  split <;> simp [h]

theorem accepted_holdsId {src : StationId} {f : Frame} {effect : State → State} {s : State}
    (h : ∀ u, (effect u).ownId = u.ownId) : HoldsId s.ownId (accepted src f effect s) := by
  refine heard_holdsId fun u => ?_
  dsimp only
  split
  · simp
  · split <;> simp [h]

theorem portAnswered_holdsId {s : State} {effect : State → Answer} (h : ∀ u, HoldsId u.ownId (effect u)) :
    HoldsId s.ownId (portAnswered s effect) := by
  unfold portAnswered
  cases s.selected.portMeets with
  | nothing => simp
  | waking => simp
  | judged => simpa using h s.selected

theorem portRequest_holdsId {s : State} {refusal : List Byte} {effect : State → Answer}
    (h : ∀ u, HoldsId u.ownId (effect u)) : HoldsId s.ownId (portRequest s refusal effect) := by
  refine portAnswered_holdsId fun u => ?_
  split
  · simp
  · exact h u

/-! ## The line and received frames -/

theorem execLineIdle_holdsId (contest : IdleContest) (s : State) : HoldsId s.ownId (execLineIdle contest s) := by
  refine inRun_holdsId ?_
  split
  · simp
  · cases contest <;> simp

theorem execCollisionError_holdsId (s : State) : HoldsId s.ownId (execCollisionError s) := by
  refine inRun_holdsId ?_
  cases s.mbi.tx <;> simp

theorem execTxSuccess_holdsId (s : State) : HoldsId s.ownId (execTxSuccess s) := by
  refine inRun_holdsId ?_
  cases s.mbi.tx with
  | sending k => dsimp only; split <;> simp
  | none => simp
  | collided k => simp

theorem execTxAttemptFailed_holdsId (race : Race) (s : State) : HoldsId s.ownId (execTxAttemptFailed race s) := by
  refine inRun_holdsId ?_
  split <;> simp

theorem execFrameFaulty_holdsId (frame : RawFrame) (s : State) : HoldsId s.ownId (execFrameFaulty frame s) := by
  unfold execFrameFaulty
  split
  · exact heard_holdsId fun u => by simp
  · simp

theorem execFrameRejected_holdsId (frame : RawFrame) (s : State) : HoldsId s.ownId (execFrameRejected frame s) := by
  unfold execFrameRejected
  split
  · exact heard_holdsId fun u => rfl
  · simp

theorem execUnknownKindFrame_holdsId (frame : RawFrame) (s : State) :
    HoldsId s.ownId (execUnknownKindFrame frame s) := by
  unfold execUnknownKindFrame
  split
  · exact heard_holdsId fun u => by simp
  · simp

theorem execStatusReceived_holdsId (src : StationId) (p : StatusPayload) (s : State) :
    HoldsId s.ownId (execStatusReceived src p s) :=
  accepted_holdsId fun u => by dsimp only; split <;> simp

theorem execTripReceived_holdsId (src : StationId) (p : TripPayload) (s : State) :
    HoldsId s.ownId (execTripReceived src p s) :=
  accepted_holdsId fun u => by split <;> simp

theorem execObjectReceived_holdsId (src : StationId) (p : ObjectPayload) (s : State) :
    HoldsId s.ownId (execObjectReceived src p s) :=
  accepted_holdsId fun u => by dsimp only; split <;> simp

theorem execAssentReceived_holdsId (src : StationId) (p : AssentPayload) (s : State) :
    HoldsId s.ownId (execAssentReceived src p s) :=
  accepted_holdsId fun u => by dsimp only; split <;> simp

theorem execSilentExitCount_holdsId (s : State) : HoldsId s.ownId (execSilentExitCount s) := by
  refine inRun_holdsId ?_
  split <;> simp

theorem execSilenceTimerExpiry_holdsId (s : State) : HoldsId s.ownId (execSilenceTimerExpiry s) := by
  refine inRun_holdsId ?_
  split <;> simp

/-! ## Timers, the sample and the self-check -/

theorem execRosterStaleLimit_holdsId (id : StationId) (s : State) : HoldsId s.ownId (execRosterStaleLimit id s) := by
  refine inRun_holdsId ?_
  cases rosterGet id s.roster with
  | none => simp
  | some e => dsimp only; split <;> simp

theorem execRosterEmptyLimit_holdsId (id : StationId) (s : State) : HoldsId s.ownId (execRosterEmptyLimit id s) := by
  refine inRun_holdsId ?_
  cases rosterGet id s.roster with
  | none => simp
  | some e => dsimp only; split <;> simp

theorem execRecordExpiry_holdsId (s : State) : HoldsId s.ownId (execRecordExpiry s) := by
  refine inRun_holdsId ?_
  cases s.closure.record with
  | none => simp
  | some r => dsimp only; split <;> simp

theorem execClaimTimerExpiry_holdsId (s : State) : HoldsId s.ownId (execClaimTimerExpiry s) := by
  refine inRun_holdsId ?_
  cases s.closure.claim with
  | none => simp
  | some c => cases h : c.phase <;> simp [h]

theorem execSettleEnd_holdsId (s : State) : HoldsId s.ownId (execSettleEnd s) := by
  refine inRun_holdsId ?_
  dsimp only
  split
  · rw [holdsId_conclude]
    split <;> simp
  · simp

theorem execSampleComplete_holdsId (inputs : SampleInputs) (race : Race) (s : State) :
    HoldsId s.ownId (execSampleComplete inputs race s) := by
  refine inRun_holdsId ?_
  split
  · cases race <;> simp
  · simp

theorem execSelfCheckEnd_holdsId (failed : CheckItems) (s : State) : HoldsId s.ownId (execSelfCheckEnd failed s) := by
  refine inRun_holdsId ?_
  split
  · rw [holdsId_conclude]
    split <;> simp
  · simp

/-! ## The requests of the service port -/

theorem execConfigWrite_holdsId (field : Byte) (value : Half) (s : State) :
    HoldsId s.ownId (execConfigWrite field value s) := by
  refine portRequest_holdsId fun u => ?_
  split
  · simp
  · split <;> simp

theorem execConfigCommit_holdsId (current : Nat) (s : State) : HoldsId s.ownId (execConfigCommit current s) := by
  refine portRequest_holdsId fun u => ?_
  split
  · simp
  · split <;> simp

theorem execLeave_holdsId (s : State) : HoldsId s.ownId (execLeave s) := by
  refine portRequest_holdsId fun u => ?_
  cases h : u.conn.state <;> simp [h]

theorem execSleep_holdsId (s : State) : HoldsId s.ownId (execSleep s) := by
  refine portRequest_holdsId fun u => ?_
  split
  · split
    · simp
    · split <;> simp
  · simp

theorem execAckTrip_holdsId (s : State) : HoldsId s.ownId (execAckTrip s) := by
  refine portRequest_holdsId fun u => ?_
  split
  · split
    · simp
    · rw [holdsId_conclude]
      split <;> simp
  · simp

theorem execSetHolds_holdsId (mask : Half) (s : State) : HoldsId s.ownId (execSetHolds mask s) := by
  refine portRequest_holdsId fun u => ?_
  split
  · simp
  · split <;> simp

theorem execCheck_holdsId (s : State) : HoldsId s.ownId (execCheck s) := by
  refine portRequest_holdsId fun u => ?_
  split
  · simp
  · cases u.conn.state <;> simp

theorem execUnknownCommand_holdsId (code : Byte) (s : State) : HoldsId s.ownId (execUnknownCommand code s) := by
  unfold execUnknownCommand
  split
  · simp
  · exact portAnswered_holdsId fun u => by simp

/-! ## Every command -/

/-- Every command keeps the own id but the loss of the supply and the two ends of a reset that read the straps (R165). -/
theorem exec_holdsId (c : Instr) (s : State) (hpower : ∀ straps, c ≠ .powerOnResetEnd straps)
    (hpin : ∀ straps current, c ≠ .pinResetEnd straps current) (hvka : c ≠ .vkaLoss) : HoldsId s.ownId (exec c s) := by
  cases c with
  | lineIdle contest => exact execLineIdle_holdsId contest s
  | collisionError => exact execCollisionError_holdsId s
  | txSuccess => exact execTxSuccess_holdsId s
  | txAttemptFailed race => exact execTxAttemptFailed_holdsId race s
  | frameFaulty frame => exact execFrameFaulty_holdsId frame s
  | frameRejected frame => exact execFrameRejected_holdsId frame s
  | unknownKindFrame frame => exact execUnknownKindFrame_holdsId frame s
  | statusReceived src p => exact execStatusReceived_holdsId src p s
  | tripReceived src p => exact execTripReceived_holdsId src p s
  | claimReceived src p => rw [exec, execClaimReceived]; exact accepted_holdsId fun u => by simp
  | objectReceived src p => exact execObjectReceived_holdsId src p s
  | assentReceived src p => exact execAssentReceived_holdsId src p s
  | closedReceived src p => rw [exec, execClosedReceived]; exact accepted_holdsId fun u => by simp
  | abandonReceived src p => rw [exec, execAbandonReceived]; exact accepted_holdsId fun u => by simp
  | releaseReceived src => rw [exec, execReleaseReceived]; exact accepted_holdsId fun u => by simp
  | silentExitCount => exact execSilentExitCount_holdsId s
  | silenceTimerExpiry => exact execSilenceTimerExpiry_holdsId s
  | rosterStaleLimit id => exact execRosterStaleLimit_holdsId id s
  | rosterEmptyLimit id => exact execRosterEmptyLimit_holdsId id s
  | recordExpiry => exact execRecordExpiry_holdsId s
  | claimTimerExpiry => exact execClaimTimerExpiry_holdsId s
  | settleEnd => exact execSettleEnd_holdsId s
  | holdOffExpiry => rw [exec, execHoldOffExpiry]; exact inRun_holdsId (by split <;> simp)
  | quietPeriodExpiry => rw [exec, execQuietPeriodExpiry]; exact inRun_holdsId (by split <;> simp)
  | releaseTimerExpiry => rw [exec, execReleaseTimerExpiry]; exact inRun_holdsId (by split <;> simp)
  | statusTimerExpiry => rw [exec, execStatusTimerExpiry]; exact inRun_holdsId (by split <;> simp)
  | lockoutWindowExpiry => rw [exec, execLockoutWindowExpiry]; exact inRun_holdsId (by split <;> simp)
  | sampleComplete inputs race => exact execSampleComplete_holdsId inputs race s
  | shortOnset current => rw [exec, execShortOnset]; exact inRun_holdsId (by simp)
  | shortClearance current => rw [exec, execShortClearance]; exact inRun_holdsId (by split <;> simp)
  | selfCheckEnd failed => exact execSelfCheckEnd_holdsId failed s
  | sleepEntry => rw [exec, execSleepEntry]; split <;> simp
  | wakeLine => rw [exec, execWakeLine]; split <;> simp
  | currentWake current => rw [exec, execCurrentWake]; split <;> simp
  | portWake => rw [exec, execPortWake]; split <;> simp
  | wakePulseEnd => rw [exec, execWakePulseEnd]; split <;> simp
  | mainDomainReady current => rw [exec, execMainDomainReady]; split <;> simp
  | vkaLoss => exact absurd rfl hvka
  | powerOnResetEnd straps => exact absurd rfl (hpower straps)
  | pinResetEnd straps current => exact absurd rfl (hpin straps current)
  | resetnLow width taken => rw [exec, execResetnLow]; split <;> simp
  | vddLow => rw [exec, execVddLow]; simp
  | serviceResetEnd current => rw [exec, execServiceResetEnd]; split <;> simp
  | ssnRelease => rw [exec, execSsnRelease]; dsimp only; split <;> simp
  | transactionBegin => rw [exec, execTransactionBegin]; simp
  | ident => rw [exec, execIdent]; exact portAnswered_holdsId fun u => by simp
  | statusRead => rw [exec, execStatusRead]; exact portAnswered_holdsId fun u => by simp
  | sampleRead => rw [exec, execSampleRead]; exact portAnswered_holdsId fun u => by simp
  | faultRead => rw [exec, execFaultRead]; exact portAnswered_holdsId fun u => by simp
  | historyRead => rw [exec, execHistoryRead]; exact portAnswered_holdsId fun u => by simp
  | countersRead => rw [exec, execCountersRead]; exact portAnswered_holdsId fun u => by simp
  | closureRead => rw [exec, execClosureRead]; exact portAnswered_holdsId fun u => by simp
  | rosterRead id => rw [exec, execRosterRead]; exact portAnswered_holdsId fun u => by rw [holdsId_next]; split <;> simp
  | eventClear mask => rw [exec, execEventClear]; exact portAnswered_holdsId fun u => by simp
  | eventEnable mask => rw [exec, execEventEnable]; exact portAnswered_holdsId fun u => by simp
  | configWrite field value => exact execConfigWrite_holdsId field value s
  | configCommit current => exact execConfigCommit_holdsId current s
  | join => rw [exec, execJoin]; exact portRequest_holdsId fun u => by split <;> simp
  | leave => exact execLeave_holdsId s
  | sleep => exact execSleep_holdsId s
  | ackTrip => exact execAckTrip_holdsId s
  | setHolds mask => exact execSetHolds_holdsId mask s
  | clearFaults mask => rw [exec, execClearFaults]; exact portRequest_holdsId fun u => by split <;> simp
  | check => exact execCheck_holdsId s
  | serviceReset => rw [exec, execServiceReset]; exact portRequest_holdsId fun u => by simp
  | unknownCommand code => exact execUnknownCommand_holdsId code s

/-! ## IDENT and the straps -/

theorem exec_ident {s : State} (h : s.PortJudges) : exec .ident s = .next (s.reply .done s.identBytes) := by
  rw [exec, execIdent, portAnswered_of_judged s _ h]

/-- The end of a power-on reset reads the straps (R165, R172). -/
theorem exec_powerOnResetEnd_holdsId (straps : StationId) {s : State}
    (h : s.power.phase = .unpowered ∨ s.power.phase = .powerOnReset) :
    HoldsId straps (exec (.powerOnResetEnd straps) s) := by
  rw [exec, execPowerOnResetEnd, if_pos h]
  simp

/-- The end of a pin reset reads the straps (R165, R174). -/
theorem exec_pinResetEnd_holdsId (straps : StationId) (current : Nat) {s : State} (h : s.power.phase = .pinReset) :
    HoldsId straps (exec (.pinResetEnd straps current) s) := by
  rw [exec, execPinResetEnd, if_pos h]
  simp

/-- Settles O42: the response of IDENT, the two commands that read the straps, and `exec_holdsId` for the others. -/
theorem identReturnsTheHeldId : Obligations.IdentReturnsTheHeldId := by
  refine ⟨fun s h => ?ident, fun straps s t h => ?powerOn, fun straps current s t h => ?pin,
    fun c s t hpower hpin hvka => ?others⟩
  case ident => exact exec_ident h
  case powerOn => exact exec_powerOnResetEnd_holdsId straps h t
  case pin => exact exec_pinResetEnd_holdsId straps current h t
  case others => exact exec_holdsId c s hpower hpin hvka t

end Sys2Proof.Machine
end

section
/-! PROOF. What a command does to the quantities that the invariants look at, said once: every command is a chain of
elementary changes, and each invariant is kept by each of them. -/

namespace Sys2Proof.Machine

/-! ## Elementary changes -/

/-- The quantities that the invariants and the queue's statement look at, the Module Bus Interface left out. -/
def State.watched (s : State) :=
  (s.pending, s.choices, s.ownId, s.config, s.committed, s.roster, (s.conn.state, s.conn.path, s.switches), s.charge,
    (s.fault.register, s.fault.tripCounter, s.fault.history), s.power.phase)

/-- One elementary change of the watched quantities, with the condition under which a command makes it. -/
inductive Change : State → State → Prop
  /-- Nothing watched changes, and in the MBI the state and the counts stand or move within their ranges. -/
  | quiet {s u : State} (h : u.watched = s.watched) (hbus : u.mbi.bus = s.mbi.bus ∨ s.power.phase = .run)
      (htec : u.mbi.tec ≤ max 255 s.mbi.tec) (hrec : u.mbi.recCount ≤ max 255 s.mbi.recCount)
      (hgood : u.mbi.goodCount ≤ max 16 s.mbi.goodCount) : Change s u
  | connState (new : ConnState) (path : Path) (s : State) : Change s (s.changeConn new path)
  | openSwitches (s : State) : Change s s.openSwitches
  | followPath (s : State) : Change s s.followPathSources
  | enterClosing (s : State) : Change s s.enterClosing
  /-- The record of a source is written; a class A source becomes neither HELD nor LAPSED. -/
  | source (src : Source) (x : SourceRecord) {s : State}
      (h : src.classB = false → x.heldOrLapsed = true → (s.fault.register.get src).heldOrLapsed = true) :
      Change s (s.setSource src x)
  | record (d : TripCause) (before : ConnState) (s : State) : Change s (s.recordTrip d before)
  /-- The Roster is written in RUN, and gets no entry for the own id. -/
  | roster (r : List RosterSlot) {s : State} (hrun : s.power.phase = .run)
      (h : rosterGet s.ownId s.roster = none → rosterGet s.ownId r = none) : Change s { s with roster := r }
  | integrate (x : Sample) (s : State) : Change s (s.integrate x)
  | initialLevel {s : State} (h : s.committed = true) : Change s s.applyInitialLevel
  | config (field : Byte) (value : Half) {s : State} (hc : s.committed = false)
      (h : fieldAccepts field.toNat value = true) :
      Change s { s with config := s.config.setField field.toNat (if field = 22 ∧ value = 255 then none else some value) }
  | commit (s : State) : Change s { s with committed := true }
  | sleep (s : State) : Change s s.enterSleep
  /-- Outside RUN the phase changes, but not into a pin reset. -/
  | phase (p : Phase) {s : State} (h : s.power.phase ≠ .run) (hp : p ≠ .pinReset) :
      Change s { s with power := { s.power with phase := p } }
  | wake (s : State) : Change s s.wakeMainDomain
  | halt (service : Bool) (s : State) : Change s (s.halt service)
  /-- The straps are read at the end of a pin reset. -/
  | straps (id : StationId) {s : State} (h : s.power.phase = .pinReset) : Change s { s with ownId := id }
  | supplyLoss {s u : State} (h : execVkaLoss s = .next u) : Change s u
  | powerOn (straps : StationId) {s u : State} (h : execPowerOnResetEnd straps s = .next u) : Change s u

/-- A chain of elementary changes. -/
abbrev Changes : State → State → Prop := Relation.ReflTransGen Change

theorem Change.chain {s u : State} (h : Change s u) : Changes s u := .single h

/-- An update that touches nothing watched and nothing of the MBI's state and counts. -/
theorem Changes.quiet {s u : State} (h : u.watched = s.watched) (hbus : u.mbi.bus = s.mbi.bus)
    (htec : u.mbi.tec = s.mbi.tec) (hrec : u.mbi.recCount = s.mbi.recCount)
    (hgood : u.mbi.goodCount = s.mbi.goodCount) : Changes s u :=
  .single (.quiet h (.inl hbus) (by omega) (by omega) (by omega))

/-- A chain that begins with such an update. -/
theorem Changes.after {s u w : State} (hc : Changes u w) (h : u.watched = s.watched) (hbus : u.mbi.bus = s.mbi.bus)
    (htec : u.mbi.tec = s.mbi.tec) (hrec : u.mbi.recCount = s.mbi.recCount)
    (hgood : u.mbi.goodCount = s.mbi.goodCount) : Changes s w :=
  (Changes.quiet h hbus htec hrec hgood).trans hc

/-! ## The shared operations as chains -/

theorem State.setEvent_changes (e : Event) (s : State) : Changes s (s.setEvent e) := by
  apply Changes.quiet <;> simp [State.watched]

theorem State.queueFrame_changes (f : Frame) (s : State) : Changes s (s.queueFrame f) := by
  apply Changes.quiet <;> simp [State.watched]

theorem State.handStatus_changes (s : State) : Changes s s.handStatus := State.queueFrame_changes _ s

theorem State.offer_changes (s : State) : Changes s s.offer := by
  apply Changes.quiet <;> simp [State.watched]

theorem State.reply_changes (r : Result) (data : List Byte) (s : State) : Changes s (s.reply r data) := by
  apply Changes.quiet <;> simp [State.watched]

theorem State.changeConn_changes (new : ConnState) (path : Path) (s : State) : Changes s (s.changeConn new path) :=
  (Change.connState new path s).chain

theorem State.endClaim_changes (o : ClaimOutcome) (s : State) : Changes s (s.endClaim o) :=
  Changes.quiet rfl rfl rfl rfl rfl

theorem State.startHoldOff_changes (s : State) : Changes s s.startHoldOff := Changes.quiet rfl rfl rfl rfl rfl

theorem State.withdrawClaim_changes (w : Withdrawal) (s : State) : Changes s (s.withdrawClaim w) := by
  apply Changes.quiet <;> simp [State.watched]

theorem State.abortClaim_changes (o : ClaimOutcome) (s : State) : Changes s (s.abortClaim o) := by
  apply Changes.quiet <;> simp [State.watched]

theorem State.failClaim_changes (o : ClaimOutcome) (s : State) : Changes s (s.failClaim o) :=
  (State.changeConn_changes .isolated .none ((s.endClaim o).startHoldOff.setEvent .claimAbandoned)).after rfl rfl rfl rfl
    rfl

theorem State.queueAbandon_changes (r : AbandonReason) (s : State) : Changes s (s.queueAbandon r) :=
  State.queueFrame_changes _ s

theorem State.windowTest_changes (s : State) : Changes s s.windowTest := by
  have hclose : Changes s (s.endClaim .succeeded).enterClosing :=
    (State.endClaim_changes _ s).trans (Change.enterClosing _).chain
  have hfail : Changes s ((s.queueAbandon .window).failClaim .window) :=
    (State.queueAbandon_changes _ s).trans (State.failClaim_changes _ _)
  unfold State.windowTest
  dsimp only
  (repeat' split) <;> assumption

theorem State.captureClaim_changes (c : Claim) (s : State) : Changes s (s.captureClaim c) := by
  unfold State.captureClaim
  dsimp only
  split
  · exact (State.windowTest_changes _).after rfl rfl rfl rfl rfl
  · exact Changes.quiet rfl rfl rfl rfl rfl

theorem State.cancelSleep_changes (s : State) : Changes s s.cancelSleep := by
  apply Changes.quiet <;> simp [State.watched]

/-! ## Trips, onsets and clearances -/

theorem State.tripCore_changes (d : TripCause) (s : State) : Changes s (s.tripCore d) := by
  have hcore := ((((Change.openSwitches s).chain.trans (Change.record d s.conn.state _).chain).trans
    (State.queueFrame_changes (.trip ⟨BitVec.ofNat 8 d.code.code, d.scope.code, d.value⟩) _)).trans
      (State.abortClaim_changes .tripped _)).trans (State.changeConn_changes
        (if d.toLockout || (d.classA && s.fault.lockout.isSome) || decide (s.conn.state = .lockout) then .lockout
          else .tripped) .none _) |>.trans (State.setEvent_changes .tripTaken _)
  unfold State.tripCore
  dsimp only
  split
  · exact hcore.trans (Changes.quiet rfl rfl rfl rfl rfl)
  · exact hcore

/-- A source that becomes ACTIVE, CLEAR or stays in its state is no breach of class A (R128). -/
theorem State.setSource_changes (src : Source) (x : SourceRecord) (s : State)
    (h : x.heldOrLapsed = true → (s.fault.register.get src).heldOrLapsed = true) : Changes s (s.setSource src x) :=
  (Change.source src x fun _ => h).chain

theorem State.postponedOverCurrent_changes (src : Source) (s : State) : Changes s (s.postponedOverCurrent src) := by
  unfold State.postponedOverCurrent
  dsimp only
  split
  · exact ((State.setSource_changes _ _ _ (by simp [SourceRecord.heldOrLapsed])).trans
      (State.cancelSleep_changes _)).trans (State.tripCore_changes _ _)
  · exact .refl

theorem State.liftClosingHold_changes (s : State) : Changes s s.liftClosingHold := by
  unfold State.liftClosingHold
  split
  · exact Changes.after ((State.postponedOverCurrent_changes _ _).trans (State.postponedOverCurrent_changes _ _)) rfl rfl
      rfl rfl rfl
  · exact .refl

theorem State.takeTrip_changes (d : TripCause) (s : State) : Changes s (s.takeTrip d) := by
  unfold State.takeTrip
  split
  · exact (State.tripCore_changes d s).trans (State.liftClosingHold_changes _)
  · exact State.tripCore_changes d s

theorem State.takeAction_changes (src : Source) (value : Half) (reported : Scope) (s : State) :
    Changes s (s.takeAction src value reported) := by
  unfold State.takeAction
  cases src with
  | modOv | modUv =>
    dsimp only
    split
    · exact State.takeTrip_changes _ _
    · exact (Change.followPath s).chain
  | short | tempTrip | busOv | dupId | ocDsg | ocChg | busSilent | rxDegraded => exact State.takeTrip_changes _ _

theorem State.takeOnset_changes (src : Source) (value : Half) (reported : Scope) (s : State) :
    Changes s (s.takeOnset src value reported) := by
  have hnote : Changes s (s.setSource src { s.fault.register.get src with present := true }) :=
    State.setSource_changes _ _ _ id
  have hactive : Changes s (s.setSource src ⟨.active, true, some value⟩) :=
    State.setSource_changes _ _ _ (by simp [SourceRecord.heldOrLapsed])
  have harm : Changes s (if s.isHeld src then (s.setSource src ⟨.held, true, some value⟩).setEvent .heldFault
      else ((s.setSource src ⟨.active, true, some value⟩).cancelSleep).takeAction src value reported) := by
    split
    · next hheld =>
      refine .trans (Change.source src _ fun hb => ?_).chain (State.setEvent_changes _ _)
      simp [State.isHeld, hb] at hheld
    · exact (hactive.trans (State.cancelSleep_changes _)).trans (State.takeAction_changes _ _ _ _)
  unfold State.takeOnset
  dsimp only
  split
  · split
    · exact harm
    · exact harm
    · split
      · exact hactive.trans (State.takeAction_changes _ _ _ _)
      · exact hnote
    · exact hnote
  · exact hnote

theorem State.takeClearance_changes (src : Source) (s : State) : Changes s (s.takeClearance src) := by
  have hnote : Changes s (s.setSource src { s.fault.register.get src with present := false }) :=
    State.setSource_changes _ _ _ id
  unfold State.takeClearance
  dsimp only
  split
  · next h => exact State.setSource_changes _ _ _ fun _ => by simp [SourceRecord.heldOrLapsed, h]
  · split
    · exact (State.setSource_changes _ _ _ (by simp [SourceRecord.heldOrLapsed])).trans (Change.followPath _).chain
    · exact hnote
  · exact hnote
  · exact hnote

theorem State.postponed_changes (src : Source) (s : State) : Changes s (s.postponed src) := by
  unfold State.postponed
  dsimp only
  split
  · exact ((State.setSource_changes _ _ _ (by simp [SourceRecord.heldOrLapsed])).trans
      (State.cancelSleep_changes _)).trans (State.takeAction_changes _ _ _ _)
  · exact .refl

theorem State.followBusTrip_changes (s : State) : Changes s s.followBusTrip := by
  have htake : Changes s s.takeBusTrip := Changes.quiet rfl rfl rfl rfl rfl
  have hopen : Changes s (s.takeBusTrip.openSwitches.changeConn .isolated .none) :=
    (htake.trans (Change.openSwitches _).chain).trans (State.changeConn_changes _ _ _)
  unfold State.followBusTrip
  dsimp only
  cases s.takeBusTrip.conn.state with
  | claiming =>
    exact ((htake.trans (State.abortClaim_changes _ _)).trans (State.changeConn_changes _ _ _)).trans
      (State.setEvent_changes _ _)
  | closing => exact (hopen.trans (State.setEvent_changes _ _)).trans (State.liftClosingHold_changes _)
  | connected => exact hopen.trans (State.setEvent_changes _ _)
  | releasing => exact htake.trans (State.setEvent_changes _ _)
  | detached | isolated | tripped | lockout => exact htake

theorem State.judgeShort_changes (current : Nat) (s : State) : Changes s (s.judgeShort current) := by
  unfold State.judgeShort
  split
  · exact (State.takeOnset_changes _ _ _ _).after rfl rfl rfl rfl rfl
  · exact .refl

theorem State.takeStanding_changes (src : Source) (value : Half) (s : State) : Changes s (s.takeStanding src value) := by
  unfold State.takeStanding
  split
  · exact State.takeOnset_changes _ _ _ _
  · exact .refl

/-! ## SILENT, the eligibility test and the end of a command -/

theorem State.claimMeetsSilence_changes (s : State) : Changes s s.claimMeetsSilence := by
  unfold State.claimMeetsSilence
  (repeat' split) <;> first | exact .refl | exact State.failClaim_changes _ _

theorem State.discardFrames_changes (s : State) : Changes s s.discardFrames := Changes.quiet rfl rfl rfl rfl rfl

/-- In RUN the MBI is written whole, its counts within their ranges. -/
theorem Changes.mbi (m : Mbi) {s : State} (hrun : s.power.phase = .run) (htec : m.tec ≤ max 255 s.mbi.tec)
    (hrec : m.recCount ≤ max 255 s.mbi.recCount) (hgood : m.goodCount ≤ max 16 s.mbi.goodCount) :
    Changes s { s with mbi := m } :=
  (Change.quiet (s := s) (u := { s with mbi := m }) rfl (.inr hrun) htec hrec hgood).chain

theorem State.enterSilent_changes (race : Race) {s : State} (h : s.power.phase = .run) :
    Changes s (s.enterSilent race) := by
  have hbus := Changes.mbi { s.mbi with bus := .silent, goodCount := 0, silenceTimer := some silenceMs } h (by simp)
    (by simp) (by simp)
  unfold State.enterSilent
  dsimp only
  split
  · have hdrop := (hbus.trans (State.discardFrames_changes _)).trans (State.claimMeetsSilence_changes _)
    split
    · exact hdrop.trans (Change.sleep _).chain
    · exact hdrop.trans (State.takeOnset_changes _ _ _ _)
  · exact ((hbus.trans (State.takeOnset_changes _ _ _ _)).trans (State.discardFrames_changes _)).trans
      (State.claimMeetsSilence_changes _)

theorem State.duplicateId_changes {s : State} (h : s.power.phase = .run) : Changes s s.duplicateId := by
  have hbus := Changes.mbi { s.mbi with bus := .silent, permanentSilence := true, goodCount := 0, silenceTimer := none } h
    (by simp) (by simp) (by simp)
  have hdup := ((hbus.trans (State.takeOnset_changes .dupId (s.ownId.setWidth 16) .localOnly _)).trans
    (State.discardFrames_changes _)).trans (State.claimMeetsSilence_changes _)
  unfold State.duplicateId
  dsimp only
  split
  · exact hdup.trans (State.takeOnset_changes _ _ _ _)
  · exact hdup

theorem State.beginClaim_changes (s : State) : Changes s s.beginClaim :=
  Changes.after ((State.queueFrame_changes _ _).trans (State.changeConn_changes _ _ _)) rfl rfl rfl rfl rfl

theorem State.eligibilityTest_changes (s : State) : Changes s s.eligibilityTest := by
  unfold State.eligibilityTest
  split
  · split
    · exact State.beginClaim_changes s
    · exact State.setEvent_changes _ s
    · exact .refl
    · exact .refl
  · exact .refl

theorem State.retest_changes (s before : State) : Changes s (s.retest before) := by
  unfold State.retest
  split
  · exact State.eligibilityTest_changes s
  · exact .refl

/-- The command answers a next state, which a chain of elementary changes leads to. -/
def Answers (s : State) (a : Answer) : Prop := ∃ t, a = .next t ∧ Changes s t

theorem Answers.next {s t : State} (h : Changes s t) : Answers s (.next t) := ⟨t, rfl, h⟩

theorem Answers.unchanged (s : State) : Answers s (.next s) := .next .refl

theorem Answers.trans {s u : State} {a : Answer} (h : Changes s u) (ha : Answers u a) : Answers s a := by
  obtain ⟨t, rfl, ht⟩ := ha
  exact .next (h.trans ht)

theorem conclude_answers (before : State) {s u : State} (h : Changes s u) : Answers s (conclude before u) :=
  .next ((h.trans (State.retest_changes u before)).trans (State.offer_changes _))

theorem inRun_answers {s : State} {effect : State → Answer} (h : s.power.phase = .run → Answers s (effect s)) :
    Answers s (inRun s effect) := by
  unfold inRun
  split
  · next hrun => exact h hrun
  · exact .unchanged s

/-! ## The service port -/

theorem State.selectAsleep_changes {s : State} (h : s.power.phase ≠ .run) : Changes s s.selectAsleep := by
  unfold State.selectAsleep
  dsimp only
  split
  · exact .trans (Changes.quiet rfl rfl rfl rfl rfl) (((Change.phase .wakePulse h (by decide)).chain).trans
      (Changes.quiet rfl rfl rfl rfl rfl))
  · exact Changes.quiet rfl rfl rfl rfl rfl

theorem State.select_changes (s : State) : Changes s s.select := by
  unfold State.select
  split
  · exact Changes.quiet rfl rfl rfl rfl rfl
  · next h => exact State.selectAsleep_changes (by simp [h])
  · next h => exact State.selectAsleep_changes (by simp [h])
  · next h => exact State.selectAsleep_changes (by simp [h])
  all_goals exact Changes.quiet rfl rfl rfl rfl rfl

theorem State.selected_changes (s : State) : Changes s s.selected := by
  unfold State.selected
  split
  · exact State.select_changes s
  · exact .refl

/-- What the port judges is judged in RUN. -/
theorem State.run_of_judged {s : State} (h : s.portMeets = .judged) : s.power.phase = .run := by
  unfold State.portMeets at h
  split at h
  · exact absurd h (by decide)
  · split at h <;> first | assumption | exact absurd h (by decide)

theorem portAnswered_answers {s : State} {effect : State → Answer}
    (h : ∀ u, u.power.phase = .run → Answers u (effect u)) : Answers s (portAnswered s effect) := by
  unfold portAnswered
  split
  · exact .next (State.selected_changes s)
  · exact .next ((State.selected_changes s).trans (State.reply_changes _ _ _))
  · next hm => exact .trans (State.selected_changes s) (h _ (State.run_of_judged hm))

theorem portRequest_answers {s : State} {refusal : List Byte} {effect : State → Answer}
    (h : ∀ u, u.power.phase = .run → Answers u (effect u)) : Answers s (portRequest s refusal effect) :=
  portAnswered_answers fun u hrun => by
    split
    · exact .next (State.reply_changes _ _ u)
    · exact h u hrun

/-- A read, and a refused request, writes the response alone. -/
theorem reply_answers (r : Result) (data : List Byte) (s : State) : Answers s (.next (s.reply r data)) :=
  .next (State.reply_changes r data s)

theorem conclude_reply_answers (before : State) (r : Result) (data : List Byte) {s u : State} (h : Changes s u) :
    Answers s (conclude before (u.reply r data)) :=
  conclude_answers before (h.trans (State.reply_changes r data u))

/-! ## The Roster -/

theorem rosterGet_rosterSet_of_ne {id other : StationId} (e : RosterEntry) (r : List RosterSlot) (h : other ≠ id) :
    rosterGet other (rosterSet id e r) = rosterGet other r := by
  induction r with
  | nil => simp [rosterSet, rosterGet, Ne.symm h]
  | cons x xs ih =>
    unfold rosterSet
    split
    · simp [rosterGet, Ne.symm h]
    · split
      · next hx => subst hx; simp [rosterGet, Ne.symm h]
      · simp [rosterGet, ih]

/-- A map over the slots that keeps their ids keeps the EMPTY slots. -/
theorem rosterGet_map_none {id : StationId} {f : RosterSlot → RosterSlot} {r : List RosterSlot}
    (hf : ∀ x, (f x).id = x.id) (h : rosterGet id r = none) : rosterGet id (r.map f) = none := by
  induction r with
  | nil => rfl
  | cons x xs ih =>
    by_cases hx : x.id = id
    · simp [rosterGet, hx] at h
    · simp only [rosterGet, hx, if_false] at h
      simp [rosterGet, hf, hx, ih h]

/-- A part of the table holds no entry that the table does not. -/
theorem rosterGet_filter_none {id : StationId} {p : RosterSlot → Bool} {r : List RosterSlot}
    (h : rosterGet id r = none) : rosterGet id (r.filter p) = none := by
  induction r with
  | nil => rfl
  | cons x xs ih =>
    by_cases hx : x.id = id
    · simp [rosterGet, hx] at h
    · simp only [rosterGet, hx, if_false] at h
      rw [List.filter_cons]
      split
      · simp [rosterGet, hx, ih h]
      · exact ih h

theorem markSlot_id (ids : List StationId) (x : RosterSlot) : (markSlot ids x).id = x.id := by
  unfold markSlot; split <;> rfl

theorem RosterSlot.tick_id (x : RosterSlot) : x.tick.id = x.id := by
  unfold RosterSlot.tick; split <;> rfl

theorem State.rosterFrame_changes (id : StationId) (update : RosterEntry → RosterEntry) {s : State}
    (hrun : s.power.phase = .run) (h : id ≠ s.ownId) : Changes s (s.rosterFrame id update) := by
  have hset : ∀ u : State, u.power.phase = .run → u.ownId = s.ownId →
      Changes u { u with roster := rosterSet id (update (refreshedEntry id u.roster)) u.roster } := fun u hu ho =>
    (Change.roster _ hu fun hn => by rwa [rosterGet_rosterSet_of_ne _ _ (by rw [ho]; exact Ne.symm h)]).chain
  unfold State.rosterFrame
  dsimp only
  split
  · exact (State.setEvent_changes _ s).trans (hset _ (by simpa using hrun) (by simp))
  · exact hset s hrun rfl

theorem State.markStale_changes (ids : List StationId) {s : State} (hrun : s.power.phase = .run) :
    Changes s (s.markStale ids) := by
  have hmark : ∀ u : State, u.power.phase = .run → Changes u { u with roster := u.roster.map (markSlot ids) } :=
    fun u hu => (Change.roster _ hu (rosterGet_map_none (markSlot_id ids))).chain
  unfold State.markStale
  dsimp only
  split
  · exact (State.setEvent_changes _ s).trans (hmark _ (by simpa using hrun))
  · exact hmark s hrun

/-! ## Received frames -/

theorem State.clearRecordOf_changes (id : StationId) (s : State) : Changes s (s.clearRecordOf id) := by
  apply Changes.quiet <;> simp [State.watched]

theorem State.clearRecordFor_changes (id : StationId) (number : Byte) (s : State) :
    Changes s (s.clearRecordFor id number) := by
  apply Changes.quiet <;> simp [State.watched]

theorem State.recordClaim_changes (src : StationId) (p : ClaimPayload) (s : State) :
    Changes s (s.recordClaim src p) := by
  apply Changes.quiet <;> simp [State.watched]

theorem State.receiving_changes (s : State) : Changes s s.receiving := by
  apply Changes.quiet <;> simp [State.watched]

theorem State.hears_run {s : State} (h : s.hears = true) : s.power.phase = .run := by
  simp only [State.hears, Bool.and_eq_true, decide_eq_true_eq] at h
  exact h.1.1

theorem heard_answers {s : State} {effect : State → State}
    (h : ∀ u, u.power.phase = .run → Changes u (effect u)) : Answers s (heard s effect) := by
  unfold heard
  split
  · next hh =>
    exact conclude_answers s ((State.receiving_changes s).trans (h _ (by simpa using State.hears_run hh)))
  · exact .unchanged s

theorem State.countGood_changes (src : StationId) {s : State} (hrun : s.power.phase = .run) :
    Changes s (s.countGood src) := by
  unfold State.countGood
  split
  · exact Changes.mbi _ hrun (by simp) (by simp) (by dsimp only; split <;> omega)
  · exact .refl

theorem State.findFaulty_changes {s : State} (hrun : s.power.phase = .run) : Changes s s.findFaulty := by
  have hcount := Changes.mbi { s.mbi with
      slotDriven := decide (s.mbi.bus = .active) && !s.mbi.rejectMuted
      recCount := min 255 (s.mbi.recCount + 1)
      goodCount := 0 } hrun (by simp) (by simp) (by simp)
  unfold State.findFaulty
  dsimp only
  split
  · exact hcount.trans (Changes.after (State.takeOnset_changes _ _ _ _) rfl rfl rfl rfl rfl)
  · exact hcount

theorem State.acceptFrame_changes (src : StationId) {s : State} (hrun : s.power.phase = .run) :
    Changes s (s.acceptFrame src) := by
  have hcount := Changes.mbi { s.mbi with recCount := s.mbi.recCount - 1 } hrun (by simp) (by dsimp only; omega) (by simp)
  unfold State.acceptFrame
  dsimp only
  split
  · refine .trans ?_ (State.countGood_changes src (by simpa using hrun))
    exact hcount.trans (Changes.after (State.takeClearance_changes _ _) rfl rfl rfl rfl rfl)
  · exact hcount.trans (State.countGood_changes src hrun)

theorem accepted_answers {src : StationId} {f : Frame} {effect : State → State} {s : State}
    (h : ∀ u, u.power.phase = .run → src ≠ u.ownId → Changes u (effect u)) :
    Answers s (accepted src f effect s) := by
  refine heard_answers fun u hrun => ?_
  have haccept := State.acceptFrame_changes src hrun
  have hrun' : (u.acceptFrame src).power.phase = .run := by simpa using hrun
  dsimp only
  split
  · exact haccept.trans (State.duplicateId_changes hrun')
  · next hne =>
    split
    · exact haccept.trans (State.rosterFrame_changes src id hrun' hne)
    · exact haccept.trans (h _ hrun' hne)

theorem execStatusReceived_answers (src : StationId) (p : StatusPayload) (s : State) :
    Answers s (execStatusReceived src p s) :=
  accepted_answers fun u hrun hne => by
    have hroster := State.rosterFrame_changes src (RosterEntry.takeStatus p) hrun hne
    dsimp only
    split
    · exact hroster.trans (State.clearRecordOf_changes src _)
    · exact hroster

theorem execTripReceived_answers (src : StationId) (p : TripPayload) (s : State) :
    Answers s (execTripReceived src p s) :=
  accepted_answers fun u hrun hne => by
    split
    · exact (State.rosterFrame_changes src id hrun hne).trans (State.followBusTrip_changes _)
    · exact (State.rosterFrame_changes src _ hrun hne).trans (State.clearRecordOf_changes src _)

theorem State.yieldClaim_changes (s : State) : Changes s s.yieldClaim := by
  unfold State.yieldClaim
  split
  · split
    · exact ((State.withdrawClaim_changes _ s).trans (State.endClaim_changes _ _)).trans (State.changeConn_changes _ _ _)
    · exact .refl
  · exact .refl

theorem execClaimReceived_answers (src : StationId) (p : ClaimPayload) (s : State) :
    Answers s (execClaimReceived src p s) :=
  accepted_answers fun _ hrun hne =>
    (((State.rosterFrame_changes src _ hrun hne).trans (State.yieldClaim_changes _)).trans
      (State.recordClaim_changes src p _)).trans (State.queueFrame_changes _ _)

theorem execObjectReceived_answers (src : StationId) (p : ObjectPayload) (s : State) :
    Answers s (execObjectReceived src p s) :=
  accepted_answers fun u hrun hne => by
    have hroster := State.rosterFrame_changes src id hrun hne
    dsimp only
    split
    · exact (hroster.trans (State.queueAbandon_changes _ _)).trans (State.failClaim_changes _ _)
    · exact hroster

theorem State.takeAssent_changes (src : StationId) (awaited : List StationId) (timer : Nat) (s : State) :
    Changes s (s.takeAssent src awaited timer) := by
  unfold State.takeAssent
  dsimp only
  split
  · split
    · exact Changes.after (State.windowTest_changes _) rfl rfl rfl rfl rfl
    · exact Changes.quiet rfl rfl rfl rfl rfl
  · exact .refl

theorem execAssentReceived_answers (src : StationId) (p : AssentPayload) (s : State) :
    Answers s (execAssentReceived src p s) :=
  accepted_answers fun u hrun hne => by
    have hroster := State.rosterFrame_changes src id hrun hne
    dsimp only
    split
    · exact hroster.trans (State.takeAssent_changes _ _ _ _)
    · exact hroster

theorem State.leaveSilent_changes {s : State} (hrun : s.power.phase = .run) : Changes s s.leaveSilent :=
  ((Changes.mbi _ hrun (by simp) (by simp) (by simp)).trans (State.takeClearance_changes .busSilent _)).trans
    (State.handStatus_changes _)

theorem execSilentExitCount_answers (s : State) : Answers s (execSilentExitCount s) :=
  inRun_answers fun hrun => by
    split
    · exact conclude_answers s (State.leaveSilent_changes hrun)
    · exact .unchanged s

theorem execSilenceTimerExpiry_answers (s : State) : Answers s (execSilenceTimerExpiry s) :=
  inRun_answers fun hrun => by
    split
    · exact conclude_answers s (State.leaveSilent_changes hrun)
    · exact .unchanged s

/-! ## The line and the own attempt -/

theorem State.othersSend_changes (s : State) : Changes s s.othersSend := by
  apply Changes.quiet <;> simp [State.watched]

theorem State.offerAgainst_changes (rank : Byte) (s : State) : Changes s (s.offerAgainst rank) := by
  apply Changes.quiet <;> simp [State.watched]

theorem execLineIdle_answers (contest : IdleContest) (s : State) : Answers s (execLineIdle contest s) :=
  inRun_answers fun _ => by
    split
    · exact .unchanged s
    · cases contest with
      | alone => exact .next (Changes.after (State.offer_changes _) rfl rfl rfl rfl rfl)
      | startMarkSeen => exact .next (Changes.after (State.othersSend_changes _) rfl rfl rfl rfl rfl)
      | offered rank => exact .next (Changes.after (State.offerAgainst_changes rank _) rfl rfl rfl rfl rfl)

theorem execCollisionError_answers (s : State) : Answers s (execCollisionError s) :=
  inRun_answers fun _ => by
    split
    · exact .next (Changes.quiet rfl rfl rfl rfl rfl)
    · exact .unchanged s
    · exact .unchanged s

theorem State.claimTransmitted_changes (number : Byte) (withdrawal : Option Withdrawal) (s : State) :
    Changes s (s.claimTransmitted number withdrawal) := by
  unfold State.claimTransmitted
  split
  · exact State.queueFrame_changes _ s
  · exact .refl
  · split
    · split
      · exact State.captureClaim_changes _ s
      · exact .refl
    · exact .refl

theorem State.transmitted_changes (f : Frame) {s : State} (hrun : s.power.phase = .run) :
    Changes s (s.transmitted f) := by
  have hsent : Changes s { s with mbi := s.mbi.sent f.kind } :=
    Changes.mbi _ hrun (by simp [Mbi.sent]) (by simp) (by simp)
  unfold State.transmitted
  dsimp only
  split
  · exact hsent.trans (State.claimTransmitted_changes _ _ _)
  · split
    · exact hsent.trans (Changes.quiet rfl rfl rfl rfl rfl)
    · exact hsent
  all_goals exact hsent

theorem execTxSuccess_answers (s : State) : Answers s (execTxSuccess s) :=
  inRun_answers fun hrun => by
    split
    · split
      · exact conclude_answers s (State.transmitted_changes _ hrun)
      · exact .unchanged s
    · exact .unchanged s
    · exact .unchanged s

theorem State.countFailure_changes (k : FrameKind) (s : State) : Changes s (s.countFailure k) := by
  have hdrop : Changes s (({ s with mbi := { s.mbi with list := removeKind k s.mbi.list } } : State).setEvent .txDropped) :=
    Changes.after (State.setEvent_changes _ _) rfl rfl rfl rfl rfl
  unfold State.countFailure
  dsimp only
  split
  · exact .refl
  · split
    · split
      · exact hdrop.trans (State.failClaim_changes _ _)
      · exact hdrop
    · exact Changes.quiet rfl rfl rfl rfl rfl

theorem State.attemptFailed_changes (k : FrameKind) (race : Race) {s : State} (hrun : s.power.phase = .run) :
    Changes s (s.attemptFailed k race) := by
  have hcount : Changes s
      { s with mbi := { s.mbi with tec := min 255 (s.mbi.tec + 8), tx := .none, line := .busy } } :=
    Changes.mbi _ hrun (by simp) (by simp) (by simp)
  have hrelease : ∀ u : State, Changes u { u with mbi := u.mbi.releaseHeld } := fun u => by
    apply Changes.quiet <;> simp [State.watched]
  have hsilent : ∀ u : State, u.power.phase = .run → Changes u (if 128 ≤ u.mbi.tec then u.enterSilent race else u) :=
    fun u hu => by
      split
      · exact State.enterSilent_changes race hu
      · exact .refl
  unfold State.attemptFailed
  dsimp only
  split
  · refine .trans (.trans (hcount.trans ?_) (hrelease _)) (hsilent _ hrun)
    exact Changes.quiet rfl rfl rfl rfl rfl
  · exact ((hcount.trans (State.countFailure_changes k _)).trans (hrelease _)).trans (hsilent _ (by simpa using hrun))

theorem execTxAttemptFailed_answers (race : Race) (s : State) : Answers s (execTxAttemptFailed race s) :=
  inRun_answers fun hrun => by
    split
    · exact conclude_answers s (State.attemptFailed_changes _ race hrun)
    · exact .unchanged s

/-! ## Timers and the sample -/

theorem execRosterStaleLimit_answers (id : StationId) (s : State) : Answers s (execRosterStaleLimit id s) :=
  inRun_answers fun hrun => by
    split
    · next e he =>
      split
      · refine conclude_answers s (.trans (Change.roster _ hrun fun hn => ?_).chain (State.setEvent_changes _ _))
        refine (rosterGet_rosterSet_of_ne _ _ fun ho => ?_).trans hn
        rw [ho, he] at hn
        exact absurd hn (by simp)
      · exact .unchanged s
    · exact .unchanged s

theorem execRosterEmptyLimit_answers (id : StationId) (s : State) : Answers s (execRosterEmptyLimit id s) :=
  inRun_answers fun hrun => by
    split
    · split
      · exact conclude_answers s (((Change.roster _ hrun rosterGet_filter_none).chain.trans
          (State.setEvent_changes _ _)).trans (State.clearRecordOf_changes id _))
      · exact .unchanged s
    · exact .unchanged s

theorem execRecordExpiry_answers (s : State) : Answers s (execRecordExpiry s) :=
  inRun_answers fun _ => by
    split
    · split
      · exact conclude_answers s (Changes.quiet rfl rfl rfl rfl rfl)
      · exact .unchanged s
    · exact .unchanged s

theorem execClaimTimerExpiry_answers (s : State) : Answers s (execClaimTimerExpiry s) :=
  inRun_answers fun hrun => by
    split
    · split
      · exact conclude_answers s (((State.markStale_changes _ hrun).trans (State.queueAbandon_changes _ _)).trans
          (State.failClaim_changes _ _))
      · exact .unchanged s
    · exact .unchanged s

theorem execHoldOffExpiry_answers (s : State) : Answers s (execHoldOffExpiry s) :=
  inRun_answers fun _ => by
    split
    · exact conclude_answers s (Changes.quiet rfl rfl rfl rfl rfl)
    · exact .unchanged s

theorem execQuietPeriodExpiry_answers (s : State) : Answers s (execQuietPeriodExpiry s) :=
  inRun_answers fun _ => by
    split
    · exact conclude_answers s (Changes.quiet rfl rfl rfl rfl rfl)
    · exact .unchanged s

theorem execSettleEnd_answers (s : State) : Answers s (execSettleEnd s) :=
  inRun_answers fun _ => by
    dsimp only
    split
    · refine conclude_answers s ((State.liftClosingHold_changes s).trans ?_)
      split
      · exact (State.queueFrame_changes _ _).trans (State.changeConn_changes _ _ _)
      · exact .refl
    · exact .unchanged s

theorem execReleaseTimerExpiry_answers (s : State) : Answers s (execReleaseTimerExpiry s) :=
  inRun_answers fun _ => by
    split
    · exact conclude_answers s (State.changeConn_changes _ _ s)
    · exact .unchanged s

theorem State.startStatusTimer_changes (s : State) : Changes s s.startStatusTimer := by
  apply Changes.quiet <;> simp [State.watched]

theorem execStatusTimerExpiry_answers (s : State) : Answers s (execStatusTimerExpiry s) :=
  inRun_answers fun _ => by
    split
    · exact conclude_answers s ((State.startStatusTimer_changes s).trans (State.handStatus_changes _))
    · exact .unchanged s

theorem execLockoutWindowExpiry_answers (s : State) : Answers s (execLockoutWindowExpiry s) :=
  inRun_answers fun _ => by
    split
    · exact .next (Changes.quiet rfl rfl rfl rfl rfl)
    · exact .unchanged s

theorem State.takeClearances_changes (l : List Source) (s : State) : Changes s (s.takeClearances l) := by
  induction l generalizing s with
  | nil => exact .refl
  | cons src rest ih => exact (State.takeClearance_changes src s).trans (ih _)

theorem State.takeOnsets_changes (x : Sample) (l : List Source) (s : State) : Changes s (s.takeOnsets x l) := by
  induction l generalizing s with
  | nil => exact .refl
  | cons src rest ih => exact (State.takeOnset_changes src _ _ s).trans (ih _)

theorem State.judgeSample_changes (x : Sample) (s : State) : Changes s (s.judgeSample x) := by
  unfold State.judgeSample
  split
  · exact Changes.after ((State.takeClearances_changes _ _).trans (State.takeOnsets_changes x _ _)) rfl rfl rfl rfl rfl
  · exact .refl

theorem execSampleComplete_answers (inputs : SampleInputs) (race : Race) (s : State) :
    Answers s (execSampleComplete inputs race s) :=
  inRun_answers fun _ => by
    split
    · have htaken (x : Sample) : Changes s ((s.storeSample x).integrate x) :=
        Changes.after (Change.integrate x _).chain rfl rfl rfl rfl rfl
      cases race with
      | faultFirst =>
        exact conclude_answers s (((htaken _).trans (State.judgeSample_changes _ _)).trans
          (State.eligibilityTest_changes _))
      | controllerFirst =>
        exact conclude_answers s (((htaken _).trans (State.eligibilityTest_changes _)).trans
          (State.judgeSample_changes _ _))
    · exact .unchanged s

theorem execShortClearance_answers (current : Nat) (s : State) : Answers s (execShortClearance current s) :=
  inRun_answers fun _ => by
    split
    · exact conclude_answers s (Changes.after (State.takeClearance_changes _ _) rfl rfl rfl rfl rfl)
    · exact .unchanged s

/-! ## Sleep, wake and resets -/

theorem State.releaseMbi_changes {s : State} (hrun : s.power.phase = .run) : Changes s s.releaseMbi :=
  Changes.mbi _ hrun (by simp) (by simp) (by simp)

theorem State.endWake_changes {s : State} (hrun : s.power.phase = .run) : Changes s s.endWake := by
  refine (State.releaseMbi_changes hrun).trans ?_
  apply Changes.quiet <;> simp [State.watched, State.endWake]

theorem State.endCheck_changes (failed : CheckItems) (s : State) : Changes s (s.endCheck failed) := by
  apply Changes.quiet <;> simp [State.watched]

theorem execSelfCheckEnd_answers (failed : CheckItems) (s : State) : Answers s (execSelfCheckEnd failed s) :=
  inRun_answers fun hrun => by
    split
    · refine conclude_answers s ?_
      split
      · exact (State.endCheck_changes failed s).trans (State.endWake_changes (by simpa using hrun))
      · exact State.endCheck_changes failed s
    · exact .unchanged s

theorem execSleepEntry_answers (s : State) : Answers s (execSleepEntry s) := by
  unfold execSleepEntry
  split
  · exact .next (Change.sleep s).chain
  · exact .unchanged s

/-- A phase change outside RUN with an update of nothing watched. -/
theorem Changes.phase {s u : State} (p : Phase) (h : s.power.phase ≠ .run) (hp : p ≠ .pinReset)
    (hw : u.watched = ({ s with power := { s.power with phase := p } } : State).watched) (hm : u.mbi = s.mbi) :
    Changes s u :=
  (Change.phase p h hp).chain.trans (Changes.quiet hw (by rw [hm]) (by rw [hm]) (by rw [hm]) (by rw [hm]))

theorem execWakeLine_answers (s : State) : Answers s (execWakeLine s) := by
  unfold execWakeLine
  split
  · next h => exact .next (Changes.phase .powerUp (by simp [h.1]) (by decide) rfl rfl)
  · exact .unchanged s

theorem execCurrentWake_answers (current : Nat) (s : State) : Answers s (execCurrentWake current s) := by
  unfold execCurrentWake
  split
  · next h => exact .next (Changes.phase .wakePulse (by simp [h.1]) (by decide) rfl rfl)
  · exact .unchanged s

theorem execPortWake_answers (s : State) : Answers s (execPortWake s) := by
  unfold execPortWake
  split
  · next h =>
    refine .next (State.selectAsleep_changes fun hrun => ?_)
    simp [State.asleep, hrun] at h
  · exact .unchanged s

theorem execWakePulseEnd_answers (s : State) : Answers s (execWakePulseEnd s) := by
  unfold execWakePulseEnd
  split
  · next h => exact .next (Changes.phase .powerUp (by simp [h]) (by decide) rfl rfl)
  · exact .unchanged s

theorem execMainDomainReady_answers (current : Nat) (s : State) : Answers s (execMainDomainReady current s) := by
  unfold execMainDomainReady
  split
  · exact conclude_answers s ((Change.wake s).chain.trans (State.judgeShort_changes current _))
  · exact .unchanged s

theorem execVkaLoss_answers (s : State) : Answers s (execVkaLoss s) := .next (Change.supplyLoss rfl).chain

theorem execPowerOnResetEnd_answers (straps : StationId) (s : State) : Answers s (execPowerOnResetEnd straps s) := by
  cases h : execPowerOnResetEnd straps s with
  | next t => exact .next (Change.powerOn straps h).chain
  | fault r => exact nomatch r
  | refused r => unfold execPowerOnResetEnd at h; split at h <;> exact absurd h (by simp)

theorem State.startPinReset_changes (s : State) : Changes s s.startPinReset := by
  unfold State.startPinReset
  split <;> first | exact .refl | exact (Change.halt false s).chain

theorem execResetnLow_answers (width : Nat) (taken : Bool) (s : State) : Answers s (execResetnLow width taken s) := by
  unfold execResetnLow
  split
  · exact .next (State.startPinReset_changes s)
  · exact .unchanged s

theorem State.startUp_changes {s : State} (hrun : s.power.phase = .run) : Changes s s.startUp := by
  have hbus := State.releaseMbi_changes hrun
  have hrest : ∀ u : State, Changes u (({ ({ u with meas := { u.meas with cycleTimer := some 0 } } : State).armShort.startHoldOff.startStatusTimer with
      conn := { ({ u with meas := { u.meas with cycleTimer := some 0 } } : State).armShort.startHoldOff.startStatusTimer.conn with
        restarted := decide (({ u with meas := { u.meas with cycleTimer := some 0 } } : State).armShort.startHoldOff.startStatusTimer.conn.state ≠ ConnState.lockout) } } : State).handStatus.startSelfCheck) := by
    intro u
    apply Changes.quiet <;> simp [State.watched]
  unfold State.startUp
  dsimp only
  split
  · exact (hbus.trans (State.takeOnset_changes _ _ _ _)).trans (hrest _)
  · exact hbus.trans (hrest _)

theorem execPinResetEnd_answers (straps : StationId) (current : Nat) (s : State) :
    Answers s (execPinResetEnd straps current s) := by
  unfold execPinResetEnd
  split
  · next h =>
    have hid : Changes s { s with ownId := straps } := (Change.straps straps h).chain
    have hrun : Changes s { s with ownId := straps, power := { s.power with phase := .run } } :=
      hid.trans (Changes.phase .run (by simp [h]) (by decide) rfl rfl)
    exact conclude_answers s ((hrun.trans (State.startUp_changes rfl)).trans (State.judgeShort_changes current _))
  · exact .unchanged s

theorem execServiceResetEnd_answers (current : Nat) (s : State) : Answers s (execServiceResetEnd current s) := by
  unfold execServiceResetEnd
  split
  · next h =>
    have hrun : Changes s { s with power := { s.power with phase := .run } } :=
      Changes.phase .run (by simp [h]) (by decide) rfl rfl
    exact conclude_answers s ((hrun.trans (State.startUp_changes rfl)).trans (State.judgeShort_changes current _))
  · exact .unchanged s

theorem execSsnRelease_answers (s : State) : Answers s (execSsnRelease s) := by
  unfold execSsnRelease
  dsimp only
  split
  · exact .next (Changes.after (Change.halt true _).chain rfl rfl rfl rfl rfl)
  · exact .next (Changes.quiet rfl rfl rfl rfl rfl)

/-! ## The requests of the service port -/

theorem execRosterRead_answers (id : Byte) (s : State) : Answers s (execRosterRead id s) :=
  portAnswered_answers fun u _ => by
    split <;> exact reply_answers _ _ u

theorem execConfigWrite_answers (field : Byte) (value : Half) (s : State) : Answers s (execConfigWrite field value s) :=
  portRequest_answers fun u _ => by
    split
    · exact reply_answers _ _ u
    · next hc =>
      split
      · next ha => exact .next ((Change.config field value (by simpa using hc) ha).chain.trans (State.reply_changes _ _ _))
      · exact reply_answers _ _ u

theorem State.commit_changes (current : Nat) {s : State} (hrun : s.power.phase = .run) :
    Changes s (s.commit current) := by
  have hcommit : Changes s { s with committed := true } := (Change.commit s).chain
  have hbus : Changes s { s with
      committed := true
      mbi := { s.mbi with bus := if s.mbi.bus = BusState.listen then BusState.active else s.mbi.bus } } :=
    hcommit.trans (Changes.mbi (s := { s with committed := true }) _ hrun (by simp) (by simp) (by simp))
  have hlevel := hbus.trans (Change.initialLevel rfl).chain
  have harm (u : State) : Changes u u.armShort := by apply Changes.quiet <;> simp [State.watched]
  have hend (u : State) : Changes u u.startStatusTimer.handStatus.startCommitCheck :=
    ((State.startStatusTimer_changes u).trans (State.handStatus_changes _)).trans (Changes.quiet rfl rfl rfl rfl rfl)
  exact ((((hlevel.trans (harm _)).trans (State.takeStanding_changes _ _ _)).trans (State.takeStanding_changes _ _ _)).trans
    (State.judgeShort_changes current _)).trans (hend _)

theorem execConfigCommit_answers (current : Nat) (s : State) : Answers s (execConfigCommit current s) :=
  portRequest_answers fun u hrun => by
    split
    · exact reply_answers _ _ u
    · split
      · exact reply_answers _ _ u
      · exact conclude_reply_answers u _ _ (State.commit_changes current hrun)

theorem execJoin_answers (s : State) : Answers s (execJoin s) :=
  portRequest_answers fun u _ => by
    dsimp only
    split
    · exact conclude_reply_answers u _ _ (Changes.after ((State.cancelSleep_changes _).trans
        (State.changeConn_changes _ _ _)) rfl rfl rfl rfl rfl)
    · exact reply_answers _ _ u

theorem State.leaveClaim_changes (s : State) : Changes s s.leaveClaim := by
  unfold State.leaveClaim
  split
  · split
    · exact (State.withdrawClaim_changes _ s).trans (State.endClaim_changes _ _)
    · exact (State.queueAbandon_changes _ s).trans (State.endClaim_changes _ _)
  · exact .refl

theorem State.enterReleasing_changes (s : State) : Changes s s.enterReleasing :=
  Changes.after ((Change.openSwitches _).chain.trans (State.changeConn_changes _ _ _)) rfl rfl rfl rfl rfl

theorem execLeave_answers (s : State) : Answers s (execLeave s) :=
  portRequest_answers fun u _ => by
    have hleft : Changes u ({ u with conn := { u.conn with joined := false } } : State).cancelSleep :=
      Changes.after (State.cancelSleep_changes _) rfl rfl rfl rfl rfl
    dsimp only
    split
    · exact conclude_reply_answers u _ _ (hleft.trans (State.changeConn_changes _ _ _))
    · exact conclude_reply_answers u _ _ ((hleft.trans (State.leaveClaim_changes _)).trans (State.changeConn_changes _ _ _))
    · exact conclude_reply_answers u _ _ (((hleft.trans (State.queueAbandon_changes _ _)).trans
        (State.enterReleasing_changes _)).trans (State.liftClosingHold_changes _))
    · exact conclude_reply_answers u _ _ ((hleft.trans (State.queueFrame_changes _ _)).trans
        (State.enterReleasing_changes _))
    all_goals exact reply_answers _ _ u

theorem execSleep_answers (s : State) : Answers s (execSleep s) :=
  portRequest_answers fun u _ => by
    split
    · split
      · exact reply_answers _ _ u
      · split
        · exact reply_answers _ _ u
        · exact conclude_reply_answers u _ _ (Changes.after (State.handStatus_changes _) rfl rfl rfl rfl rfl)
    · exact reply_answers _ _ u

theorem State.acknowledgeAll_changes (l : List Source) (s : State) : Changes s (s.acknowledgeAll l) := by
  induction l generalizing s with
  | nil => exact .refl
  | cons src rest ih =>
    refine .trans ?_ (ih (s.acknowledge src))
    unfold State.acknowledge
    split
    · exact State.setSource_changes src _ s (by simp [SourceRecord.quiet, SourceRecord.heldOrLapsed])
    · exact .refl

theorem execAckTrip_answers (s : State) : Answers s (execAckTrip s) :=
  portRequest_answers fun u _ => by
    split
    · split
      · exact reply_answers _ _ u
      · refine conclude_reply_answers u _ _ ((State.acknowledgeAll_changes Source.all u).trans ?_)
        split
        · exact (State.startHoldOff_changes _).trans (State.changeConn_changes _ _ _)
        · exact State.changeConn_changes _ _ _
    · exact reply_answers _ _ u

theorem State.postponedAll_changes (l : List Source) (s : State) : Changes s (s.postponedAll l) := by
  induction l generalizing s with
  | nil => exact .refl
  | cons src rest ih => exact (State.postponed_changes src s).trans (ih _)

theorem execSetHolds_answers (mask : Half) (s : State) : Answers s (execSetHolds mask s) :=
  portRequest_answers fun u _ => by
    split
    · exact reply_answers _ _ u
    · split
      · exact reply_answers _ _ u
      · exact conclude_reply_answers u _ _ (Changes.after (State.postponedAll_changes _ _) rfl rfl rfl rfl rfl)

theorem State.clearLapsedAll_changes (mask : Half) (l : List Source) (s : State) :
    Changes s (s.clearLapsedAll mask l) := by
  induction l generalizing s with
  | nil => exact .refl
  | cons src rest ih =>
    refine .trans ?_ (ih (s.clearLapsed mask src))
    unfold State.clearLapsed
    split
    · exact State.setSource_changes src _ s (by simp [SourceRecord.heldOrLapsed])
    · exact .refl

theorem execClearFaults_answers (mask : Half) (s : State) : Answers s (execClearFaults mask s) :=
  portRequest_answers fun u _ => by
    split
    · exact reply_answers _ _ u
    · exact conclude_reply_answers u _ _ (State.clearLapsedAll_changes mask _ u)

theorem execCheck_answers (s : State) : Answers s (execCheck s) :=
  portRequest_answers fun u _ => by
    have hcheck : Changes u u.startSelfCheck := Changes.quiet rfl rfl rfl rfl rfl
    split
    · exact reply_answers _ _ u
    · split <;> first | exact conclude_reply_answers u _ _ hcheck | exact reply_answers _ _ u

theorem execEventClear_answers (mask : Half) (s : State) : Answers s (execEventClear mask s) :=
  portAnswered_answers fun _ _ => .next (Changes.quiet rfl rfl rfl rfl rfl)

theorem execEventEnable_answers (mask : Half) (s : State) : Answers s (execEventEnable mask s) :=
  portAnswered_answers fun _ _ => .next (Changes.quiet rfl rfl rfl rfl rfl)

theorem execServiceReset_answers (s : State) : Answers s (execServiceReset s) :=
  portRequest_answers fun _ _ => .next (Changes.quiet rfl rfl rfl rfl rfl)

theorem execUnknownCommand_answers (code : Byte) (s : State) : Answers s (execUnknownCommand code s) := by
  unfold execUnknownCommand
  split
  · exact .unchanged s
  · exact portAnswered_answers fun u _ => reply_answers _ _ u

/-! ## Every command and every step -/

/-- Every command answers a next state that a chain of elementary changes leads to. -/
theorem exec_answers (c : Instr) (s : State) : Answers s (exec c s) := by
  cases c with
  | lineIdle contest => exact execLineIdle_answers contest s
  | collisionError => exact execCollisionError_answers s
  | txSuccess => exact execTxSuccess_answers s
  | txAttemptFailed race => exact execTxAttemptFailed_answers race s
  | frameFaulty frame =>
    rw [exec, execFrameFaulty]
    split
    · exact heard_answers fun _ hrun => State.findFaulty_changes hrun
    · exact .unchanged s
  | frameRejected frame =>
    rw [exec, execFrameRejected]
    split
    · exact heard_answers fun _ hrun => Changes.mbi _ hrun (by simp) (by simp) (by simp)
    · exact .unchanged s
  | unknownKindFrame frame =>
    rw [exec, execUnknownKindFrame]
    split
    · exact heard_answers fun _ hrun => State.countGood_changes _ hrun
    · exact .unchanged s
  | statusReceived src p => exact execStatusReceived_answers src p s
  | tripReceived src p => exact execTripReceived_answers src p s
  | claimReceived src p => exact execClaimReceived_answers src p s
  | objectReceived src p => exact execObjectReceived_answers src p s
  | assentReceived src p => exact execAssentReceived_answers src p s
  | closedReceived src p =>
    rw [exec, execClosedReceived]
    exact accepted_answers fun _ hrun hne =>
      (State.rosterFrame_changes src _ hrun hne).trans (State.clearRecordFor_changes src _ _)
  | abandonReceived src p =>
    rw [exec, execAbandonReceived]
    exact accepted_answers fun _ hrun hne =>
      (State.rosterFrame_changes src id hrun hne).trans (State.clearRecordFor_changes src _ _)
  | releaseReceived src =>
    rw [exec, execReleaseReceived]
    exact accepted_answers fun _ hrun hne => State.rosterFrame_changes src _ hrun hne
  | silentExitCount => exact execSilentExitCount_answers s
  | silenceTimerExpiry => exact execSilenceTimerExpiry_answers s
  | rosterStaleLimit id => exact execRosterStaleLimit_answers id s
  | rosterEmptyLimit id => exact execRosterEmptyLimit_answers id s
  | recordExpiry => exact execRecordExpiry_answers s
  | claimTimerExpiry => exact execClaimTimerExpiry_answers s
  | holdOffExpiry => exact execHoldOffExpiry_answers s
  | quietPeriodExpiry => exact execQuietPeriodExpiry_answers s
  | settleEnd => exact execSettleEnd_answers s
  | releaseTimerExpiry => exact execReleaseTimerExpiry_answers s
  | statusTimerExpiry => exact execStatusTimerExpiry_answers s
  | sampleComplete inputs race => exact execSampleComplete_answers inputs race s
  | shortOnset current =>
    rw [exec, execShortOnset]
    exact inRun_answers fun _ => conclude_answers s (State.judgeShort_changes current s)
  | shortClearance current => exact execShortClearance_answers current s
  | lockoutWindowExpiry => exact execLockoutWindowExpiry_answers s
  | selfCheckEnd failed => exact execSelfCheckEnd_answers failed s
  | sleepEntry => exact execSleepEntry_answers s
  | wakeLine => exact execWakeLine_answers s
  | currentWake current => exact execCurrentWake_answers current s
  | portWake => exact execPortWake_answers s
  | wakePulseEnd => exact execWakePulseEnd_answers s
  | mainDomainReady current => exact execMainDomainReady_answers current s
  | vkaLoss => exact execVkaLoss_answers s
  | powerOnResetEnd straps => exact execPowerOnResetEnd_answers straps s
  | resetnLow width taken => exact execResetnLow_answers width taken s
  | vddLow => exact .next (State.startPinReset_changes s)
  | pinResetEnd straps current => exact execPinResetEnd_answers straps current s
  | serviceResetEnd current => exact execServiceResetEnd_answers current s
  | ssnRelease => exact execSsnRelease_answers s
  | transactionBegin => exact .next (State.select_changes s)
  | ident => rw [exec, execIdent]; exact portAnswered_answers fun u _ => reply_answers .done u.identBytes u
  | statusRead => rw [exec, execStatusRead]; exact portAnswered_answers fun u _ => reply_answers .done u.statusBytes u
  | sampleRead => rw [exec, execSampleRead]; exact portAnswered_answers fun u _ => reply_answers .done u.sampleBytes u
  | rosterRead id => exact execRosterRead_answers id s
  | faultRead => rw [exec, execFaultRead]; exact portAnswered_answers fun u _ => reply_answers .done u.faultBytes u
  | historyRead => rw [exec, execHistoryRead]; exact portAnswered_answers fun u _ => reply_answers .done u.historyBytes u
  | countersRead => rw [exec, execCountersRead]; exact portAnswered_answers fun u _ => reply_answers .done u.counterBytes u
  | closureRead => rw [exec, execClosureRead]; exact portAnswered_answers fun u _ => reply_answers .done u.closureBytes u
  | configWrite field value => exact execConfigWrite_answers field value s
  | configCommit current => exact execConfigCommit_answers current s
  | join => exact execJoin_answers s
  | leave => exact execLeave_answers s
  | sleep => exact execSleep_answers s
  | ackTrip => exact execAckTrip_answers s
  | setHolds mask => exact execSetHolds_answers mask s
  | clearFaults mask => exact execClearFaults_answers mask s
  | check => exact execCheck_answers s
  | eventClear mask => exact execEventClear_answers mask s
  | eventEnable mask => exact execEventEnable_answers mask s
  | serviceReset => exact execServiceReset_answers s
  | unknownCommand code => exact execUnknownCommand_answers code s

/-- The passing of 1 ms is a chain of elementary changes from the state with its counter of free choices moved on. -/
theorem State.passTime_changes (s : State) : ∃ n, Changes { s with choices := n } s.passTime := by
  unfold State.passTime
  split
  · refine ⟨s.choices, ?_⟩
    split
    · exact .refl
    · next hrun _ =>
      have hage : Changes s { s with roster := if s.mbi.bus = .off then s.roster else s.roster.map RosterSlot.tick } :=
        (Change.roster _ hrun fun hn => by
          split
          · exact hn
          · exact rosterGet_map_none RosterSlot.tick_id hn).chain
      exact hage.trans (Changes.quiet rfl rfl rfl rfl rfl)
  · exact ⟨s.choices + 1, Changes.quiet rfl rfl rfl rfl rfl⟩
  · exact ⟨s.choices, Changes.quiet rfl rfl rfl rfl rfl⟩
  · next h =>
    refine ⟨s.choices + 1, ?_⟩
    unfold State.tickUnpowered
    split <;> exact (Change.phase (s := { s with choices := s.choices + 1 }) _ (by simp [h]) (by decide)).chain
  all_goals exact ⟨s.choices, .refl⟩

/-- Every step answers a next state that a chain of elementary changes leads to, from the state with its queue and its
counter of free choices moved on. -/
theorem step_answers (s : State) : ∃ pending choices, Answers { s with pending := pending, choices := choices } (step s) := by
  unfold step
  split
  · next c rest h => exact ⟨rest, s.choices, exec_answers c _⟩
  · next h =>
    split
    · next c s' hd =>
      have hs' : s' = s.chosen := by
        unfold State.nextDue at hd
        split at hd <;> simp_all
      subst hs'
      exact ⟨s.pending, s.choices + 1, exec_answers c s.chosen⟩
    · obtain ⟨n, hn⟩ := s.passTime_changes
      exact ⟨s.pending, n, .next hn⟩

/-! ## Invariants -/

/-- A property that every elementary change keeps and that does not look at the queue is kept by every step. -/
theorem step_keeps {P : State → Prop} (hchange : ∀ {s u : State}, Change s u → P s → P u)
    (hqueue : ∀ (s : State) (pending : List Instr) (choices : Nat), P s → P { s with pending := pending, choices := choices })
    {s t : State} (h : step s = .next t) (hs : P s) : P t := by
  obtain ⟨pending, choices, t', ht', hchain⟩ := step_answers s
  obtain rfl : t = t' := by rw [h] at ht'; injection ht'
  have hP := hqueue s pending choices hs
  clear h ht' hs
  induction hchain with
  | refl => exact hP
  | tail _ hc ih => exact hchange hc ih

end Sys2Proof.Machine
end

section
/-! PROOF. The invariants (R15 to R17, R20, R22, R70, R90, R100 to R102, R105, R128, R143, R144): each is kept by every
elementary change, and so by every step. -/

namespace Sys2Proof.Machine

/-! ## What single changes leave alone -/

/-- An update of nothing watched, field by field. -/
theorem State.watched_eq_iff (s u : State) :
    u.watched = s.watched ↔ u.pending = s.pending ∧ u.choices = s.choices ∧ u.ownId = s.ownId ∧ u.config = s.config
      ∧ u.committed = s.committed ∧ u.roster = s.roster
      ∧ (u.conn.state = s.conn.state ∧ u.conn.path = s.conn.path ∧ u.switches = s.switches) ∧ u.charge = s.charge
      ∧ (u.fault.register = s.fault.register ∧ u.fault.tripCounter = s.fault.tripCounter
        ∧ u.fault.history = s.fault.history) ∧ u.power.phase = s.power.phase := by
  simp [State.watched]

/-- The state after the loss of VKA. -/
theorem execVkaLoss_eq {s u : State} (h : execVkaLoss s = .next u) :
    u = { State.reset with
      pending := s.pending, choices := s.choices, pins := s.pins, mbi := .offState false, closure := .empty,
      conn := .atRest .detached false, meas := { sample := none, cycleTimer := none },
      power := { State.reset.power with phase := .unpowered }, port := s.port.halted } := by
  unfold execVkaLoss at h
  injection h with h
  exact h.symm

/-- The end of a power-on reset leaves the state as it was or at the reset values. -/
theorem execPowerOnResetEnd_eq {straps : StationId} {s u : State} (h : execPowerOnResetEnd straps s = .next u) :
    u = s ∨ u = ({ State.reset with
      pending := s.pending, choices := s.choices, pins := s.pins, ownId := straps,
      port := { State.reset.port with line := s.port.line } } : State).startHoldOff := by
  unfold execPowerOnResetEnd at h
  split at h <;> injection h with h
  · exact .inr h.symm
  · exact .inl h.symm

/-! ## The queue -/

theorem Change.keepsQueue {s u : State} (h : Change s u) : u.pending = s.pending ∧ u.choices = s.choices := by
  cases h with
  | quiet h => simp_all [State.watched_eq_iff]
  | supplyLoss h => rw [execVkaLoss_eq h]; exact ⟨rfl, rfl⟩
  | powerOn straps h => rcases execPowerOnResetEnd_eq h with rfl | rfl <;> exact ⟨rfl, rfl⟩
  | _ => simp

theorem Changes.keepsQueue {s u : State} (h : Changes s u) : u.pending = s.pending ∧ u.choices = s.choices := by
  induction h with
  | refl => exact ⟨rfl, rfl⟩
  | tail _ hc ih => exact ⟨hc.keepsQueue.1.trans ih.1, hc.keepsQueue.2.trans ih.2⟩

/-- Settles O3: each command is a chain of elementary changes from the state it meets, and none of those touches the
queue. -/
theorem everyCommandAnswers : Obligations.EveryCommandAnswers := by
  refine ⟨fun c s => ?_, fun s => ?_⟩
  · obtain ⟨t, ht, hchain⟩ := exec_answers c s
    exact ⟨t, ht, hchain.keepsQueue⟩
  · obtain ⟨_, _, t, ht, _⟩ := step_answers s
    exact ⟨t, ht⟩

/-! ## Switches and path -/

/-- Outside CLOSING and CONNECTED a change of connection state leaves the switches open if they were so, and opens them
where it is a change. -/
theorem State.changeConn_switchesSafe (new : ConnState) (path : Path) {s : State} (h : s.SwitchesSafe) :
    (s.changeConn new path).SwitchesSafe := by
  unfold State.SwitchesSafe at *
  rw [State.changeConn_state]
  unfold State.changeConn
  split
  · next he => rwa [← he]
  · simp only [State.handStatus_frame, State.setEvent_frame]
    intro hs
    by_contra hn
    simp_all

theorem State.changeConn_pathSafe (new : ConnState) (path : Path) {s : State} (h : s.PathSafe) :
    (s.changeConn new path).PathSafe := by
  unfold State.PathSafe at *
  rw [State.changeConn_state]
  intro hn
  unfold State.changeConn
  split
  · next he => exact h (by rwa [he])
  · simp [hn]

theorem Change.keepsSwitches {s u : State} (h : Change s u) (hs : s.SwitchesSafe) : u.SwitchesSafe := by
  have hopen {u : State} (h : u.switches = { chg := false, dsg := false }) : u.SwitchesSafe := by
    simp [State.SwitchesSafe, h]
  cases h with
  | quiet h =>
    obtain ⟨-, -, -, -, -, -, ⟨hstate, -, hswitches⟩, -⟩ := (State.watched_eq_iff _ _).1 h
    rwa [State.SwitchesSafe, hstate, hswitches]
  | connState new path => exact State.changeConn_switchesSafe new path hs
  | openSwitches => exact hopen rfl
  | followPath =>
    unfold State.followPathSources
    split
    · next h => exact fun _ => .inl h
    · next h =>
      dsimp only
      split <;> exact fun _ => .inr (by simpa using h)
    all_goals exact hs
  | enterClosing => exact fun _ => .inl (by simp [State.enterClosing])
  | sleep | wake | halt => exact hopen rfl
  | supplyLoss h => rw [execVkaLoss_eq h]; exact hopen rfl
  | powerOn straps h =>
    rcases execPowerOnResetEnd_eq h with rfl | rfl
    · exact hs
    · exact hopen rfl
  | _ => simpa [State.SwitchesSafe] using hs

theorem Change.keepsPath {s u : State} (h : Change s u) (hs : s.PathSafe) : u.PathSafe := by
  cases h with
  | quiet h =>
    obtain ⟨-, -, -, -, -, -, ⟨hstate, hpath, -⟩, -⟩ := (State.watched_eq_iff _ _).1 h
    rwa [State.PathSafe, hstate, hpath]
  | connState new path => exact State.changeConn_pathSafe new path hs
  | followPath =>
    unfold State.followPathSources
    split
    · exact hs
    · next h =>
      dsimp only
      split <;> exact fun hn => absurd (by simpa using h) hn
    all_goals exact hs
  | enterClosing => exact State.changeConn_pathSafe _ _ hs
  | sleep | wake | halt => intro _; rfl
  | supplyLoss h => rw [execVkaLoss_eq h]; intro _; rfl
  | powerOn straps h =>
    rcases execPowerOnResetEnd_eq h with rfl | rfl
    · exact hs
    · intro _; rfl
  | _ => simpa [State.PathSafe] using hs

/-- Settles O57: each elementary change keeps the switches and the path safe. -/
theorem everyStepKeepsSwitchesAndPath : Obligations.EveryStepKeepsSwitchesAndPath := by
  intro s t hswitches hpath h
  exact ⟨step_keeps Change.keepsSwitches (fun _ _ _ hs => hs) h hswitches,
    step_keeps Change.keepsPath (fun _ _ _ hs => hs) h hpath⟩

/-! ## Fault records -/

theorem SourceRecord.heldOrLapsed_iff (x : SourceRecord) : x.heldOrLapsed = true ↔ x.state = .held ∨ x.state = .lapsed := by
  cases h : x.state <;> simp [SourceRecord.heldOrLapsed, h]

theorem State.classASafe_iff (s : State) :
    s.ClassASafe ↔ ∀ src : Source, src.classB = false → (s.fault.register.get src).heldOrLapsed = false := by
  simp only [State.ClassASafe, ← not_or, ← SourceRecord.heldOrLapsed_iff, Bool.not_eq_true]

theorem FaultRegister.get_quiet (src : Source) : FaultRegister.quiet.get src = .quiet := by
  cases src <;> rfl

theorem Change.keepsClassA {s u : State} (h : Change s u) (hs : s.ClassASafe) : u.ClassASafe := by
  rw [State.classASafe_iff] at *
  have hquiet (src : Source) : (FaultRegister.quiet.get src).heldOrLapsed = false := by
    rw [FaultRegister.get_quiet]; rfl
  cases h with
  | quiet h => simp_all [State.watched_eq_iff]
  | source src x hx =>
    intro other hb
    rw [State.setSource_register]
    by_cases ho : other = src
    · subst ho
      rw [FaultRegister.get_set_self]
      exact Bool.eq_false_iff.2 fun hx' => by simp [hs other hb] at hx; simp_all
    · rw [FaultRegister.get_set_of_ne _ _ _ _ ho]
      exact hs other hb
  | sleep | halt => exact fun src _ => hquiet src
  | supplyLoss h => rw [execVkaLoss_eq h]; exact fun src _ => hquiet src
  | powerOn straps h =>
    rcases execPowerOnResetEnd_eq h with rfl | rfl
    · exact hs
    · exact fun src _ => hquiet src
  | _ => simpa using hs

/-- Records appended one above the newest keep the numbers consecutive. -/
theorem consecutiveTrips_append {l : List TripRecord} {r : TripRecord} (h : consecutiveTrips l)
    (hr : ∀ x, l.getLast? = some x → r.number = x.number + 1) : consecutiveTrips (l ++ [r]) := by
  induction l with
  | nil => trivial
  | cons a rest ih =>
    cases rest with
    | nil => exact ⟨hr a rfl, trivial⟩
    | cons b rest => exact ⟨h.1, ih h.2 fun x hx => hr x (by simpa using hx)⟩

theorem consecutiveTrips_drop_one {l : List TripRecord} (h : consecutiveTrips l) : consecutiveTrips (l.drop 1) := by
  match l, h with
  | [], _ => trivial
  | [_], _ => trivial
  | _ :: _ :: _, h => exact h.2

theorem appendTrip_getLast? (l : List TripRecord) (r : TripRecord) : (appendTrip l r).getLast? = some r := by
  unfold appendTrip
  split <;> simp

theorem appendTrip_length (l : List TripRecord) (r : TripRecord) (h : l.length ≤ 4) : (appendTrip l r).length ≤ 4 := by
  unfold appendTrip
  split <;> simp <;> omega

theorem consecutiveTrips_appendTrip {l : List TripRecord} {r : TripRecord} (h : consecutiveTrips l)
    (hr : ∀ x, l.getLast? = some x → r.number = x.number + 1) : consecutiveTrips (appendTrip l r) := by
  unfold appendTrip
  split
  · refine consecutiveTrips_append (consecutiveTrips_drop_one h) fun x hx => hr x ?_
    rw [List.getLast?_drop] at hx
    split at hx <;> simp_all
  · exact consecutiveTrips_append h hr

/-- The number of the next record is one above the newest one's (R144). -/
theorem FaultUnit.nextTripNumber_of_newest {f : FaultUnit} {x : TripRecord} (hx : f.history.getLast? = some x)
    (hsound : f.tripCounter < 65535 → x.number.toNat = f.tripCounter) : f.nextTripNumber = x.number + 1 := by
  unfold FaultUnit.nextTripNumber
  split
  · next hlt =>
    apply BitVec.eq_of_toNat_eq
    rw [BitVec.toNat_add, hsound hlt]
    simp
  · rw [hx]

theorem State.recordTrip_historySound (d : TripCause) (before : ConnState) {s : State} (h : s.HistorySound) :
    (s.recordTrip d before).HistorySound := by
  obtain ⟨hlen, -, hcons, hnewest⟩ := h
  refine ⟨appendTrip_length _ _ hlen, by simp [State.recordTrip], consecutiveTrips_appendTrip hcons fun x hx => ?_,
    fun hlt r hr => ?_⟩
  · exact FaultUnit.nextTripNumber_of_newest hx fun hlt => hnewest hlt x hx
  · simp only [State.recordTrip, appendTrip_getLast?, Option.some.injEq] at hr hlt ⊢
    subst hr
    simp only [FaultUnit.nextTripNumber]
    rw [if_pos (by omega), BitVec.toNat_ofNat]
    omega

theorem Change.keepsHistory {s u : State} (h : Change s u) (hs : s.HistorySound) : u.HistorySound := by
  have hempty {u : State} (h : u.fault.tripCounter = 0) (he : u.fault.history = []) : u.HistorySound := by
    simp [State.HistorySound, h, he, consecutiveTrips]
  cases h with
  | quiet h => simpa [State.HistorySound, (State.watched_eq_iff _ _).1 h] using hs
  | record d before => exact State.recordTrip_historySound d before hs
  | supplyLoss h => rw [execVkaLoss_eq h]; exact hempty rfl rfl
  | powerOn straps h =>
    rcases execPowerOnResetEnd_eq h with rfl | rfl
    · exact hs
    · exact hempty rfl rfl
  | _ => simpa [State.HistorySound] using hs

/-- Settles O58: only the writing of a source's record and the recording of a trip touch what the two invariants say. -/
theorem everyStepKeepsFaultRecords : Obligations.EveryStepKeepsFaultRecords := by
  intro s t hclassA hhistory h
  exact ⟨step_keeps Change.keepsClassA (fun _ _ _ hs => hs) h hclassA,
    step_keeps Change.keepsHistory (fun _ _ _ hs => hs) h hhistory⟩

/-! ## Counts and the charge account -/

theorem Change.keepsCounts {s u : State} (h : Change s u) (hs : s.CountsBounded) : u.CountsBounded := by
  obtain ⟨htec, hrec, hgood⟩ := hs
  have hzero {u : State} (h1 : u.mbi.tec = 0) (h2 : u.mbi.recCount = 0) (h3 : u.mbi.goodCount = 0) : u.CountsBounded := by
    simp [State.CountsBounded, h1, h2, h3]
  cases h with
  | quiet _ _ h1 h2 h3 => exact ⟨by omega, by omega, by omega⟩
  | sleep | halt => exact hzero rfl rfl rfl
  | supplyLoss h => rw [execVkaLoss_eq h]; exact hzero rfl rfl rfl
  | powerOn straps h =>
    rcases execPowerOnResetEnd_eq h with rfl | rfl
    · exact ⟨htec, hrec, hgood⟩
    · exact hzero rfl rfl rfl
  | _ => exact ⟨by simpa using htec, by simpa using hrec, by simpa using hgood⟩

theorem chargeAdd_bounded (amount rem n : Nat) :
    (chargeAdd amount rem n).1 ≤ 4294967295 ∧ (chargeAdd amount rem n).2 < 25000 := by
  unfold chargeAdd stepsPerAs counterMax
  dsimp only
  split <;> simp <;> omega

theorem accumulatorMove_bounded (capacity amount rem : Nat) (n : Int) :
    (accumulatorMove capacity amount rem n).1 ≤ capacity ∧ (accumulatorMove capacity amount rem n).2 < 25000 := by
  unfold accumulatorMove stepsPerAs
  dsimp only
  split
  · simp
  · split
    · simp
    · simp only; omega

/-- The charge account within its ranges, for a capacity and a commit state. -/
def Charge.Bounded (committed : Bool) (capacity : Nat) (c : Charge) : Prop :=
  c.inAs ≤ 4294967295 ∧ c.inRem < 25000 ∧ c.outAs ≤ 4294967295 ∧ c.outRem < 25000 ∧ c.accRem < 25000 ∧ c.rest ≤ 30000
    ∧ (c.levelValid = true → committed = true ∧ c.accAs ≤ capacity)
    ∧ (c.levelValid = false → c.accAs = 0 ∧ c.accRem = 0)

theorem State.chargeBounded_iff (s : State) :
    s.ChargeBounded ↔ s.charge.Bounded s.committed s.config.capacityAs
      ∧ ∀ v, s.config.initialLevel = some v → v.toNat ≤ 200 := by
  simp only [State.ChargeBounded, Charge.Bounded, and_assoc]

theorem Charge.count_bounded {committed : Bool} {capacity : Nat} {c : Charge} (n : Int)
    (h : c.Bounded committed capacity) : (c.count n).Bounded committed capacity := by
  obtain ⟨h1, h2, h3, h4, h5, h6, h7, h8⟩ := h
  unfold Charge.count
  split
  · exact ⟨(chargeAdd_bounded _ _ _).1, (chargeAdd_bounded _ _ _).2, h3, h4, h5, h6, h7, h8⟩
  · split
    · exact ⟨h1, h2, (chargeAdd_bounded _ _ _).1, (chargeAdd_bounded _ _ _).2, h5, h6, h7, h8⟩
    · exact ⟨h1, h2, h3, h4, h5, h6, h7, h8⟩

theorem Charge.move_bounded {committed : Bool} {capacity : Nat} {c : Charge} (n : Int)
    (h : c.Bounded committed capacity) : (c.move capacity n).Bounded committed capacity := by
  obtain ⟨h1, h2, h3, h4, h5, h6, h7, h8⟩ := h
  unfold Charge.move
  split
  · next hv =>
    exact ⟨h1, h2, h3, h4, (accumulatorMove_bounded _ _ _ _).2, h6, fun _ => ⟨(h7 hv).1, (accumulatorMove_bounded _ _ _ _).1⟩,
      fun hf => absurd (hf : c.levelValid = false) (by simp [hv])⟩
  · exact ⟨h1, h2, h3, h4, h5, h6, h7, h8⟩

theorem Charge.timeRest_bounded {committed : Bool} {capacity : Nat} {c : Charge} (restCurrent : Nat) (n : Int)
    (h : c.Bounded committed capacity) : (c.timeRest committed restCurrent n).Bounded committed capacity := by
  obtain ⟨h1, h2, h3, h4, h5, h6, h7, h8⟩ := h
  unfold Charge.timeRest
  split
  · exact ⟨h1, h2, h3, h4, h5, by dsimp only [restMs]; split <;> omega, h7, h8⟩
  · exact ⟨h1, h2, h3, h4, h5, h6, h7, h8⟩

/-- A recalibration sets the accumulator within the capacity (R106). -/
theorem Charge.recalibration_le {cfg : ConfigRecord} {vmod : Half} {c : Charge} {amount : Nat}
    (h : c.recalibration cfg vmod = some amount) : amount ≤ cfg.capacityAs := by
  unfold Charge.recalibration at h
  split at h
  · split at h
    · cases h; exact Nat.zero_le _
    · split at h <;> cases h; exact le_rfl
  · cases h

theorem State.recalibrate_charge (amount : Nat) (s : State) :
    (s.recalibrate amount).charge = { s.charge with accAs := amount, accRem := 0, levelValid := true, rest := 0 } := by
  unfold State.recalibrate
  dsimp only
  split <;> simp

theorem State.integrate_bounded (x : Sample) {s : State} (h : s.charge.Bounded s.committed s.config.capacityAs) :
    (s.integrate x).charge.Bounded s.committed s.config.capacityAs := by
  have hmoved := Charge.timeRest_bounded (fieldNat s.config.restCurrent) x.current.toInt
    (Charge.move_bounded x.current.toInt (Charge.count_bounded x.current.toInt h))
  unfold State.integrate
  dsimp only
  split
  · next hc =>
    split
    · next amount ha =>
      rw [State.recalibrate_charge]
      obtain ⟨h1, h2, h3, h4, -, -, -, -⟩ := hmoved
      exact ⟨h1, h2, h3, h4, by simp, by simp, fun _ => ⟨hc, Charge.recalibration_le ha⟩, fun hf => by simp at hf⟩
    · exact hmoved
  · exact hmoved

theorem State.applyInitialLevel_bounded {s : State} (hc : s.committed = true)
    (h : s.charge.Bounded s.committed s.config.capacityAs) (hv : ∀ v, s.config.initialLevel = some v → v.toNat ≤ 200) :
    s.applyInitialLevel.charge.Bounded s.committed s.config.capacityAs := by
  unfold State.applyInitialLevel
  split
  · next v hl =>
    obtain ⟨h1, h2, h3, h4, -, h6, -, -⟩ := h
    refine ⟨h1, h2, h3, h4, by simp, h6, fun _ => ⟨hc, ?_⟩, fun hf => by simp at hf⟩
    have := Nat.mul_le_mul_right s.config.capacityAs (hv v hl)
    dsimp only
    omega
  · exact h

/-- Writing a field sets the initial level to a value in its range or leaves it (R166). -/
theorem ConfigRecord.setField_initialLevel {field : Byte} {value : Half} {c : ConfigRecord}
    (ha : fieldAccepts field.toNat value = true) (h : ∀ v, c.initialLevel = some v → v.toNat ≤ 200) (v : Half)
    (hv : (c.setField field.toNat (if field = 22 ∧ value = 255 then none else some value)).initialLevel = some v) :
    v.toNat ≤ 200 := by
  by_cases hf : field = 22
  · subst hf
    have hset (w : Option Half) : (c.setField (22 : Byte).toNat w).initialLevel = w := rfl
    rw [hset] at hv
    have hin : inRange 0 200 value = true ∨ value = 255 := by simpa [fieldAccepts] using ha
    rcases hin with hin | rfl
    · split at hv
      · cases hv
      · cases hv
        simp only [inRange, Bool.and_eq_true, decide_eq_true_eq] at hin
        exact hin.2
    · simp at hv
  · refine h v (Eq.trans ?_ hv)
    have hn : field.toNat ≠ 22 := fun hn => hf (BitVec.eq_of_toNat_eq hn)
    unfold ConfigRecord.setField
    split <;> first | rfl | exact absurd ‹field.toNat = 22› hn

theorem Change.keepsCharge {s u : State} (h : Change s u) (hs : s.ChargeBounded) : u.ChargeBounded := by
  rw [State.chargeBounded_iff] at *
  obtain ⟨hb, hl⟩ := hs
  have hzero {u : State} (h : u.charge = ⟨0, 0, 0, 0, 0, 0, false, 0⟩) (hc : u.config = .unset) :
      u.charge.Bounded u.committed u.config.capacityAs ∧ ∀ v, u.config.initialLevel = some v → v.toNat ≤ 200 := by
    rw [h, hc]
    exact ⟨by simp [Charge.Bounded], by simp [ConfigRecord.unset]⟩
  cases h with
  | quiet h => simpa [(State.watched_eq_iff _ _).1 h] using And.intro hb hl
  | integrate x => simpa using And.intro (State.integrate_bounded x hb) hl
  | initialLevel hc => simpa using And.intro (State.applyInitialLevel_bounded hc hb hl) hl
  | config field value hc ha =>
    obtain ⟨h1, h2, h3, h4, h5, h6, h7, h8⟩ := hb
    exact ⟨⟨h1, h2, h3, h4, h5, h6, fun hv => by simp [hc] at h7; simp [h7] at hv, h8⟩,
      ConfigRecord.setField_initialLevel ha hl⟩
  | commit =>
    obtain ⟨h1, h2, h3, h4, h5, h6, h7, h8⟩ := hb
    exact ⟨⟨h1, h2, h3, h4, h5, h6, fun hv => ⟨rfl, (h7 hv).2⟩, h8⟩, hl⟩
  | supplyLoss h => rw [execVkaLoss_eq h]; exact hzero rfl rfl
  | powerOn straps h =>
    rcases execPowerOnResetEnd_eq h with rfl | rfl
    · exact ⟨hb, hl⟩
    · exact hzero rfl rfl
  | _ => simpa using And.intro hb hl

/-- Settles O59: the counts move in the MBI's own updates only, the charge account in a sample and in the commit. -/
theorem everyStepKeepsCountsInRange : Obligations.EveryStepKeepsCountsInRange := by
  intro s t hcounts hcharge h
  exact ⟨step_keeps Change.keepsCounts (fun _ _ _ hs => hs) h hcounts,
    step_keeps Change.keepsCharge (fun _ _ _ hs => hs) h hcharge⟩

/-! ## The Roster and the bus -/

theorem Change.keepsRoster {s u : State} (h : Change s u) (hs : s.RosterSafe) : u.RosterSafe := by
  obtain ⟨hown, hreset⟩ := hs
  cases h with
  | quiet h => simpa [State.RosterSafe, (State.watched_eq_iff _ _).1 h] using And.intro hown hreset
  | roster r hrun h => exact ⟨h hown, fun hp => by simp [hrun] at hp⟩
  | sleep | halt => exact ⟨rfl, fun _ => rfl⟩
  | phase p _ hp => exact ⟨hown, fun hp' => absurd hp' hp⟩
  | wake => exact ⟨by simpa using hown, fun hp => by simp [State.wakeMainDomain, State.armShort, State.startSelfCheck] at hp⟩
  | straps id hp => exact ⟨by simp [hreset hp, rosterGet], fun _ => hreset hp⟩
  | supplyLoss h => rw [execVkaLoss_eq h]; exact ⟨rfl, fun _ => rfl⟩
  | powerOn straps h =>
    rcases execPowerOnResetEnd_eq h with rfl | rfl
    · exact ⟨hown, hreset⟩
    · exact ⟨rfl, fun _ => rfl⟩
  | _ => simpa [State.RosterSafe] using And.intro hown hreset

theorem Change.keepsOff {s u : State} (h : Change s u) (hs : s.OffOutsideRun) : u.OffOutsideRun := by
  unfold State.OffOutsideRun at *
  cases h with
  | quiet h hbus =>
    have hphase : u.power.phase = s.power.phase := by simp [(State.watched_eq_iff _ _).1 h]
    rw [hphase]
    rcases hbus with hbus | hrun
    · rwa [hbus]
    · exact fun hn => absurd hrun hn
  | sleep | halt => exact fun _ => rfl
  | phase p hn _ => exact fun _ => hs hn
  | wake => exact fun hn => absurd rfl hn
  | supplyLoss h => rw [execVkaLoss_eq h]; exact fun _ => rfl
  | powerOn straps h =>
    rcases execPowerOnResetEnd_eq h with rfl | rfl
    · exact hs
    · exact fun hn => absurd rfl hn
  | _ => simpa using hs

/-- Settles O60: the Roster is written in RUN with entries of peers, and the phase leaves RUN with the MBI OFF. -/
theorem everyStepKeepsRosterAndBus : Obligations.EveryStepKeepsRosterAndBus := by
  intro s t hroster hoff h
  exact ⟨step_keeps Change.keepsRoster (fun _ _ _ hs => hs) h hroster,
    step_keeps Change.keepsOff (fun _ _ _ hs => hs) h hoff⟩

end Sys2Proof.Machine
end

section
/-! PROOF. The step: the front command, a command that has come due, and what 1 ms does in each phase (log entries 1, 2, 6,
14, 38, 39 and 41); the state after reset. -/

namespace Sys2Proof.Machine

/-- Settles O1: the two branches of `step` are told apart by the queue. -/
theorem stepTakesTheFrontCommand : Obligations.StepTakesTheFrontCommand := by
  intro c rest s h
  rw [step, h]

/-! ## What an idle step does -/

theorem step_of_no_candidate {s : State} (hq : s.pending = []) (h : s.candidates = []) : step s = .next s.passTime := by
  simp [step, hq, State.nextDue, h]

/-- The command taken is one of the candidates, whatever the free order. -/
theorem step_of_candidates {s : State} (hq : s.pending = []) (h : s.candidates ≠ []) :
    ∃ d, d ∈ s.candidates ∧ step s = exec d s.chosen := by
  cases hc : s.candidates with
  | nil => exact absurd hc h
  | cons c cs =>
    have hlt : Config.freePick s.choices % (cs.length + 1) < (c :: cs).length := Nat.mod_lt _ (Nat.succ_pos _)
    refine ⟨(c :: cs)[Config.freePick s.choices % (cs.length + 1)], List.getElem_mem hlt, ?_⟩
    simp [step, hq, State.nextDue, hc, List.getElem?_eq_getElem hlt]

/-! ## What 1 ms does -/

theorem RosterSlot.tick_eq (x : RosterSlot) :
    x.tick = if x.entry.state = .asleep then x else { x with entry := { x.entry with age := x.entry.age + 1 } } := by
  unfold RosterSlot.tick
  cases h : x.entry.state <;> simp

theorem State.waits_iff_due (s : State) :
    s.waits = true ↔ s.meas.cycleTimer = some 4 ∨ s.power.checkTimer = some 0 := by
  rw [State.waits, Bool.or_eq_true]
  exact or_congr decide_eq_true_iff decide_eq_true_iff

theorem State.passTime_run {s : State} (h : s.power.phase = .run) :
    s.passTime = if s.waits then s else s.tickRun := by
  simp [State.passTime, h]

theorem State.passTime_sleep {s : State} (h : s.power.phase = .sleep) : s.passTime = s.tickSleep := by
  simp [State.passTime, h]

/-- The run timer of the wake-line detector, whose run length is 1 ms (R157). -/
theorem wakeRun_one (armed active : Bool) (run : Nat) :
    wakeRun armed active 1 run = if armed then if active then 1 else 0 else run := by
  unfold wakeRun
  simp

/-! ## What comes due in each phase -/

theorem State.candidates_of_not_run {s : State} (h : s.power.phase ≠ .run) : s.candidates = s.due := by
  unfold State.candidates
  split
  · next hrun _ => exact absurd hrun h
  · rfl

theorem State.candidates_of_dueAtOnce {s : State} {c : Instr} (h : s.power.phase = .run) (hc : s.dueAtOnce = some c) :
    s.candidates = [c] := by
  simp [State.candidates, h, hc]

theorem State.mem_dueInSleep (s : State) (c : Instr) :
    c ∈ s.dueInSleep ↔ (c = .wakeLine ∧ s.power.wakeLineArmed = true ∧ 1 ≤ s.power.wakeLineRun)
      ∨ (c = .currentWake s.pins.current ∧ s.det.wakeCurrentArmed = true ∧ 8 ≤ s.det.wakeCurrentRun
        ∧ fieldNat s.config.wakeCurrent < s.pins.current) := by
  unfold State.dueInSleep wakeLineMs wakeCurrentMs
  rw [List.mem_append]
  refine or_congr ?_ ?_ <;> split <;> simp [*]

theorem State.due_of_halted {s : State} (h : s.power.phase = .powerOnReset ∨ s.power.phase = .pinReset
    ∨ s.power.phase = .serviceReset ∨ s.power.phase = .powerUp ∨ s.power.phase = .unpowered) : s.due = [] := by
  unfold State.due
  rcases h with h | h | h | h | h <;> simp [h]

/-- Settles O2: an idle step by whether a command is due, 1 ms by the phase, and the candidates by the phase. -/
theorem idleStepTakesADueCommandOrPasses : Obligations.IdleStepTakesADueCommandOrPasses := by
  intro s
  refine ⟨fun hq => ⟨step_of_no_candidate hq, step_of_candidates hq⟩, ?runs, ?waits, ?sleep, ?pulse, ?unpowered, ?halted,
    ?due⟩
  case runs =>
    intro hrun hcycle hcheck
    have hw : s.waits = false := by simp [State.waits, cycleMs, hcycle, hcheck]
    have hroster : (fun x : RosterSlot => if x.entry.state = .asleep then x
        else { x with entry := { x.entry with age := x.entry.age + 1 } }) = RosterSlot.tick :=
      funext fun x => x.tick_eq.symm
    rw [State.passTime_run hrun, hw, hroster, if_neg (by decide)]
    rcases hclaim : s.closure.claim with _ | ⟨v, _ | ⟨ids, timer⟩⟩ <;>
      simp only [State.tickRun, Closure.tick, Claim.tick, hclaim, Option.map_none, Option.map_some] <;> rfl
  case waits =>
    intro hrun h
    rw [State.passTime_run hrun, if_pos (s.waits_iff_due.2 h)]
  case sleep =>
    intro h
    have hc : s.candidates = s.dueInSleep := by
      rw [State.candidates_of_not_run (by simp [h])]
      simp [State.due, h]
    refine ⟨⟨Config.freeMwkLow s.choices, Config.freeCurrent s.choices, ?_⟩, ?_, fun current => ?_, fun c hmem => ?_⟩
    · rw [State.passTime_sleep h, State.tickSleep]
      simp only [wakeLineMs, wakeRun_one]
      simp [wakeRun, wakeCurrentMs]
    · rw [hc, State.mem_dueInSleep]; simp
    · rw [hc, State.mem_dueInSleep]
      constructor
      · rintro (⟨hw, -⟩ | ⟨hw, h1, h2, h3⟩)
        · cases hw
        · cases hw; exact ⟨h1, h2, h3, rfl⟩
      · rintro ⟨h1, h2, h3, rfl⟩; exact .inr ⟨rfl, h1, h2, h3⟩
    · rw [hc, State.mem_dueInSleep] at hmem
      rcases hmem with ⟨rfl, -⟩ | ⟨rfl, -⟩
      · exact .inl rfl
      · exact .inr ⟨_, rfl⟩
  case pulse =>
    intro h
    rw [State.candidates_of_not_run (by simp [h])]
    exact ⟨by simp [State.due, h, dueAt], by simp [State.passTime, h]; rfl⟩
  case unpowered =>
    intro h
    rw [State.candidates_of_not_run (by simp [h]), State.due_of_halted (by simp [h])]
    refine ⟨rfl, if Config.freeVka s.choices then .powerOnReset else .unpowered, by split <;> simp, ?_⟩
    simp [State.passTime, h, State.tickUnpowered]
  case halted =>
    intro h
    rw [State.candidates_of_not_run (by rcases h with h | h | h | h <;> simp [h]), State.due_of_halted (by tauto)]
    exact ⟨rfl, by unfold State.passTime; rcases h with h | h | h | h <;> simp [h]⟩
  case due =>
    intro h
    refine ⟨fun ⟨k, hk⟩ => ?_, fun hk hs => ?_, fun hk hs hserved => ?_, fun hk hs hserved c => ?_⟩
    · exact ⟨_, State.candidates_of_dueAtOnce h (by simp [State.dueAtOnce, hk]; rfl)⟩
    · refine State.candidates_of_dueAtOnce h ?_
      have hd := (s.sleepDue_iff h).2 hs
      unfold State.dueAtOnce
      split
      · next k hk' => exact absurd hk' (hk k)
      all_goals rw [if_pos hd]
    · refine State.candidates_of_dueAtOnce h ?_
      have hd : ¬ s.sleepDue = true := fun hd => hs ((s.sleepDue_iff h).1 hd)
      unfold State.dueAtOnce
      split
      · next k hk' => exact absurd hk' (hk k)
      all_goals exact (if_neg hd).trans (if_pos hserved)
    · rw [State.candidates_run s h ((s.dueAtOnce_none_iff h).2 ⟨hk, hs, hserved⟩), State.mem_dueInRun, mem_rosterDue]

/-! ## The state after reset -/

/-- Settles O56: reset is the end of a power-on reset with the straps open, and each invariant is read off its fields. -/
theorem resetIsThePowerOnStart : Obligations.ResetIsThePowerOnStart := by
  refine ⟨rfl, rfl, fun h => ?switches, fun _ => rfl, ?classA, ?history, ?counts, ?charge, ⟨rfl, fun _ => rfl⟩,
    fun h => absurd rfl h⟩
  case switches => simp [State.reset] at h
  case classA =>
    rw [State.classASafe_iff]
    intro src _
    have : State.reset.fault.register.get src = .quiet := FaultRegister.get_quiet src
    rw [this]
    rfl
  case history => exact ⟨by simp [State.reset], by simp [State.reset], trivial, fun _ r hr => by simp [State.reset] at hr⟩
  case counts => simp [State.CountsBounded, State.reset]
  case charge => simp [State.ChargeBounded, State.reset, ConfigRecord.unset]

end Sys2Proof.Machine
end

section
/-! PROOF. Frames and port bytes: encoding and decoding agree (R2, R4, R6, R177, R191 to R194). -/

namespace Sys2Proof

/-! ## Bytes and fields -/

/-- A two-byte field is read back from its bytes (R191, R194). -/
@[simp] theorem halfOf_hiByte_loByte (h : Half) : halfOf (hiByte h) (loByte h) = h := by
  apply BitVec.eq_of_getLsbD_eq
  intro i hi
  simp only [halfOf, hiByte, loByte, BitVec.getLsbD_append, BitVec.getLsbD_extractLsb']
  split
  · simp [*]
  · next hn =>
    have : i - 8 < 8 := by omega
    simp [this, show 8 + (i - 8) = i by omega]

theorem rankByte_kindCode (kind src : BitVec 4) : (rankByte kind src).extractLsb' 4 4 = kind := by
  apply BitVec.eq_of_getLsbD_eq
  intro i hi
  simp only [rankByte, BitVec.getLsbD_extractLsb', BitVec.getLsbD_append]
  simp [hi]

theorem rankByte_source (kind src : BitVec 4) : (rankByte kind src).extractLsb' 0 4 = src := by
  apply BitVec.eq_of_getLsbD_eq
  intro i hi
  simp only [rankByte, BitVec.getLsbD_extractLsb', BitVec.getLsbD_append]
  simp [hi]

@[simp] theorem FrameKind.ofCode_code (k : FrameKind) : FrameKind.ofCode k.code = some k := by
  cases k <;> rfl

/-! ## Frames -/

@[simp] theorem Frame.encode_kindCode (src : StationId) (f : Frame) : (f.encode src).kindCode = f.kind.code :=
  rankByte_kindCode _ _

@[simp] theorem Frame.encode_source (src : StationId) (f : Frame) : (f.encode src).source = src := rankByte_source _ _

@[simp] theorem Frame.encode_payload (src : StationId) (f : Frame) : (f.encode src).payload = f.payload := rfl

/-- The payload of a frame has the length of its kind (R6). -/
theorem Frame.payload_length (f : Frame) : f.payload.length = f.kind.payloadBytes.toNat := by
  cases f <;> rfl

theorem Frame.encode_wf (src : StationId) (f : Frame) : (f.encode src).wf = true := by
  simp only [RawFrame.wf, decide_eq_true_eq]
  exact f.payload_length

/-- A frame as it is sent has the length of its kind and the check byte of its bytes, so it is found good (R6). -/
theorem Frame.encode_not_faulty (src : StationId) (f : Frame) : (f.encode src).faulty = false := by
  have hlen : (f.encode src).length = f.kind.payloadBytes := rfl
  have hcheck : (f.encode src).check = checkByte (f.encode src).checked := rfl
  have hshort : f.kind.payloadBytes.toNat < 9 := by cases f.kind <;> decide
  simp [RawFrame.faulty, hlen, hcheck, hshort]

/-- The fields of a frame are read back from its payload (R192). -/
theorem Frame.knownFrameCommand_payload (src : StationId) (f : Frame) :
    knownFrameCommand src f.kind f.payload = some (f.received src) := by
  cases f with
  | trip p => exact congrArg (fun v => some (Instr.tripReceived src ⟨p.faultCode, p.scope, v⟩)) (halfOf_hiByte_loByte p.value)
  | claim p => exact congrArg (fun v => some (Instr.claimReceived src ⟨v, p.number, p.timing⟩)) (halfOf_hiByte_loByte p.voltage)
  | closed p => exact congrArg (fun v => some (Instr.closedReceived src ⟨p.number, v⟩)) (halfOf_hiByte_loByte p.vbus)
  | status p =>
    exact congrArg₂ (fun v i => some (Instr.statusReceived src ⟨v, i, p.level, p.temperature, p.stateByte, p.flagsByte⟩))
      (halfOf_hiByte_loByte p.voltage) (halfOf_hiByte_loByte p.current)
  | object | assent | abandon | release => rfl

/-- Settles O4: a sent frame is found good, its kind is the one of its code, and its payload gives back its fields. -/
theorem framesDecodeToWhatWasSent : Obligations.FramesDecodeToWhatWasSent := by
  intro src f
  refine ⟨f.encode_wf src, f.encode_not_faulty src, ?_, ?_⟩
  · simp [RawFrame.toCommand, f.encode_not_faulty src, f.knownFrameCommand_payload src]
  · simp [RawFrame.toCommand, f.encode_not_faulty src]

/-! ## Port bytes -/

/-- An unassigned code is none of those that `decodePort` reads (R178, R194). -/
theorem decodePort_unassigned (current : Nat) {code : Byte} (h : portCodeAssigned code = false) :
    decodePort current [code] = some (.unknownCommand code) := by
  have hne (c : Byte) (hc : portCodeAssigned c = true) : ¬ code = c := by
    rintro rfl
    simp [h] at hc
  simp [decodePort, portPlainCommand, hne, portCodeAssigned]

/-- Settles O5: command by command, the code selects the command and the argument bytes give back its fields. -/
theorem portBytesDecodeToTheCommand : Obligations.PortBytesDecodeToTheCommand := by
  intro c bytes current hwf hbytes
  cases c with
  | unknownCommand code =>
    cases hbytes
    exact decodePort_unassigned current (by simpa [Instr.wf] using hwf)
  | rosterRead id => cases hbytes; rfl
  | configWrite field value => cases hbytes; simp [decodePort]
  | setHolds mask | clearFaults mask | eventClear mask | eventEnable mask => cases hbytes; simp [decodePort]
  | _ => cases hbytes <;> rfl

/-! ## Arbitration -/

/-- Bit by bit from the top, the station loses whose remaining bits spell the higher number (R4). -/
theorem arbitrationLostFrom_iff (own other : Byte) (n : Nat) :
    arbitrationLostFrom own other n = decide (other.toNat % 2 ^ n < own.toNat % 2 ^ n) := by
  induction n with
  | zero => simp [arbitrationLostFrom, Nat.mod_one]
  | succ n ih =>
    have hown := Nat.mod_pow_succ (x := own.toNat) (b := 2) (k := n)
    have hother := Nat.mod_pow_succ (x := other.toNat) (b := 2) (k := n)
    have h1 := Nat.mod_lt own.toNat (Nat.two_pow_pos n)
    have h2 := Nat.mod_lt other.toNat (Nat.two_pow_pos n)
    simp only [arbitrationLostFrom, BitVec.getLsbD, Nat.testBit_eq_decide_div_mod_eq, ih, hown, hother]
    rcases Nat.mod_two_eq_zero_or_one (own.toNat / 2 ^ n) with ho | ho <;>
      rcases Nat.mod_two_eq_zero_or_one (other.toNat / 2 ^ n) with hp | hp <;> simp [ho, hp] <;> omega

/-- Settles O6: the check register on the worked bytes, and arbitration as the order of the rank bytes. -/
theorem checkBytesAndArbitration : Obligations.CheckBytesAndArbitration := by
  refine ⟨by decide +kernel, fun own other => ?_⟩
  have h1 : own.toNat < 2 ^ 8 := own.isLt
  have h2 : other.toNat < 2 ^ 8 := other.isLt
  rw [arbitrationLost, arbitrationLostFrom_iff, Nat.mod_eq_of_lt h1, Nat.mod_eq_of_lt h2]

end Sys2Proof
end

section
/-! PROOF. Power-on, the loss of VKA, the starts of the resets and the entry into SLEEP (R91, R151, R153, R155, R171 to R175,
R190): each as the values that its one change leaves. -/

namespace Sys2Proof.Machine

/-! ## Power-on and the loss of VKA -/

/-- Settles O7: the state that the end of a power-on reset leaves is written out in the model, and each value read off. -/
theorem powerOnStartUp : Obligations.PowerOnStartUp := by
  intro straps s h
  refine ⟨_, by rw [exec, execPowerOnResetEnd, if_pos h], ?_⟩
  repeat' apply And.intro
  all_goals rfl

/-- Settles O8: the state after the loss of VKA is a fixed one but for the queue and the pins; the gates by the phase. -/
theorem lossOfKeepAliveSupply : Obligations.LossOfKeepAliveSupply := by
  refine ⟨fun s => ⟨_, rfl, ?_⟩, fun s => ⟨fun h => ?_, fun h => ?_, fun h => ?_⟩⟩
  · repeat' apply And.intro
    all_goals rfl
  · exact ⟨State.gate_of_unpowered _ h, State.gate_of_unpowered _ h⟩
  · have hasleep : s.asleep = true := by
      unfold State.asleep
      rcases h with h | h | h <;> rw [h]
    exact ⟨State.gate_of_asleep _ hasleep, State.gate_of_asleep _ hasleep⟩
  · have hawake : s.asleep = false := by
      unfold State.asleep
      rcases h with h | h | h | h <;> rw [h]
    have hpowered : s.power.phase ≠ .unpowered := by
      rcases h with h | h | h | h <;> rw [h] <;> decide
    exact ⟨State.gate_of_driven _ hawake hpowered, State.gate_of_driven _ hawake hpowered⟩

/-! ## The starts of the resets -/

theorem State.startPinReset_eq {s : State} (h1 : s.power.phase ≠ .unpowered) (h2 : s.power.phase ≠ .powerOnReset)
    (h3 : s.power.phase ≠ .pinReset) : s.startPinReset = s.halt false := by
  unfold State.startPinReset
  split <;> first | rfl | contradiction

theorem State.startPinReset_within {s : State}
    (h : s.power.phase = .unpowered ∨ s.power.phase = .powerOnReset ∨ s.power.phase = .pinReset) : s.startPinReset = s := by
  unfold State.startPinReset
  rcases h with h | h | h <;> rw [h]

theorem exec_resetnLow_taken {width : Nat} {taken : Bool} (s : State) (h : 50 ≤ width ∨ 20 ≤ width ∧ taken = true) :
    exec (.resetnLow width taken) s = .next s.startPinReset := by
  rw [exec, execResetnLow, if_pos h]

theorem exec_resetnLow_ignored {width : Nat} {taken : Bool} (s : State) (h : ¬ (50 ≤ width ∨ 20 ≤ width ∧ taken = true)) :
    exec (.resetnLow width taken) s = .next s := by
  rw [exec, execResetnLow, if_neg h]

/-- Settles O9: a taken pulse and a fall of VDD are `startPinReset`, which is `halt` or, within a reset, nothing. -/
theorem pinResetStart : Obligations.PinResetStart := by
  refine ⟨fun c s hc h1 h2 h3 => ?starts, fun width taken s h => exec_resetnLow_ignored s ?ignored, fun s h => ?within⟩
  case starts =>
    have hexec : exec c s = .next (s.halt false) := by
      rw [← State.startPinReset_eq h1 h2 h3]
      rcases hc with rfl | ⟨width, taken, rfl, hw⟩
      · rfl
      · exact exec_resetnLow_taken s hw
    refine ⟨s.halt false, hexec, ?_⟩
    repeat' apply And.intro
    all_goals rfl
  case ignored =>
    rintro (hw | ⟨hw, rfl⟩)
    · omega
    · simp at h; omega
  case within =>
    have hstay := State.startPinReset_within h
    refine ⟨by rw [exec, execVddLow, hstay], fun width taken => ?_⟩
    by_cases hw : 50 ≤ width ∨ 20 ≤ width ∧ taken = true
    · rw [exec_resetnLow_taken s hw, hstay]
    · exact exec_resetnLow_ignored s hw

/-- Settles O10: the release writes the select line alone, or starts the service reset, which is `halt true` from there. -/
theorem selectReleaseAndServiceReset : Obligations.SelectReleaseAndServiceReset := by
  intro s
  refine ⟨fun h => ?released, fun hrun hpending => ?reset⟩
  case released =>
    rw [exec, execSsnRelease]
    refine if_neg ?_
    rintro ⟨h1, h2⟩
    rcases h with h | h
    · exact h h1
    · rw [h] at h2; exact absurd h2 (by decide)
  case reset =>
    refine ⟨({ s with port := { s.port with line := .released } } : State).halt true, ?_, ?_⟩
    · rw [exec, execSsnRelease]
      exact if_pos ⟨hrun, hpending⟩
    · have hstate : (if (true && decide (s.conn.state = .lockout)) = true then ConnState.lockout else .detached)
          = if s.conn.state = .lockout then .lockout else .detached := by simp
      have hwindow : (if (true && decide (s.conn.state = .lockout)) = true then s.fault.lockout else none)
          = if s.conn.state = .lockout then s.fault.lockout else none := by simp
      refine ⟨rfl, rfl, rfl, rfl, rfl, ?_, rfl, rfl, hstate, hwindow, ?_⟩
      · simp [State.halt, Mbi.offState]
      · repeat' apply And.intro
        all_goals rfl

/-! ## The entry into SLEEP -/

/-- Settles O38: the five conditions are those of `sleepDue`, and the state is the one that `enterSleep` writes. -/
theorem sleepEntryKeepsTheKeepAliveDomain : Obligations.SleepEntryKeepsTheKeepAliveDomain := by
  intro s hrun hsleep hlist hline hreset hcheck
  have hdue : s.sleepDue = true := (s.sleepDue_iff hrun).2 ⟨hsleep, hlist, hline, hreset, hcheck⟩
  refine ⟨s.enterSleep, by rw [exec, execSleepEntry, if_pos hdue], ?_⟩
  repeat' apply And.intro
  all_goals rfl

end Sys2Proof.Machine
end

section
/-! PROOF. The line and the own attempt (R3 to R5, R10, R11, R13 to R15, R40, R50, R51, R58, R93): what becomes of a
transmitted frame and of a failed attempt, said once for each. -/

namespace Sys2Proof.Machine

/-! ## How a command ends -/

/-- A command that ends as a state with a property ends so in the sense of Safety.lean. -/
theorem ends_of_conclude {s u : State} {a : Answer} {P : State → Prop} (ha : a = conclude s u) (hu : P u) :
    ∃ u t, a = .next t ∧ EndOfCommand s u t ∧ P u := by
  obtain ⟨t, ht, hend⟩ := conclude_end s u
  exact ⟨u, t, ha.trans ht, hend, hu⟩

/-! ## The line becomes idle -/

theorem arbitrationLost_rankByte (k : FrameKind) (id : StationId) (rank : Byte) :
    arbitrationLost (rankByte k.code id) rank = decide (rank.toNat < 16 * k.code.toNat + id.toNat) := by
  rw [checkBytesAndArbitration.2]
  have hrank : (rankByte k.code id).toNat = 16 * k.code.toNat + id.toNat := by
    rw [rankByte, BitVec.toNat_append, Nat.shiftLeft_eq, Nat.mul_comm, ← Nat.two_pow_add_eq_or_of_lt id.isLt]
  rw [hrank]

theorem exec_lineIdle {s : State} (contest : IdleContest) (hrun : s.power.phase = .run) (hbus : s.mbi.bus ≠ .off)
    (htx : s.mbi.tx = .none) :
    exec (.lineIdle contest) s = match contest with
      | .alone => .next ({ s with mbi := { s.mbi with line := .idle } } : State).offer
      | .startMarkSeen => .next ({ s with mbi := { s.mbi with line := .idle } } : State).othersSend
      | .offered rank => .next (({ s with mbi := { s.mbi with line := .idle } } : State).offerAgainst rank) := by
  rw [exec, execLineIdle, inRun_of_run _ _ hrun, if_neg (by simp [hbus, htx])] <;> cases contest <;> rfl

theorem State.othersSend_eq (s : State) :
    ({ s with mbi := { s.mbi with line := .idle } } : State).othersSend = { s with mbi := { s.mbi with
      line := .busy
      silenceTimer := if s.mbi.bus = .silent ∧ s.mbi.permanentSilence = false then some 2000
        else s.mbi.silenceTimer } } := by
  unfold State.othersSend State.startMarkRead
  by_cases h : s.mbi.bus = .silent ∧ s.mbi.permanentSilence = false
  · simp [h, silenceMs]
  · simp only [if_neg h]

/-- Settles O12: each contest is one branch of the row, and the arbitration is the comparison of the two rank bytes. -/
theorem lineIdleOffersTheHead : Obligations.LineIdleOffersTheHead := by
  intro s hrun hbus htx
  refine ⟨fun f rest hactive hlist => ?offers, fun hnone => ?receives, ?startMark⟩
  case startMark => rw [exec_lineIdle _ hrun hbus htx, State.othersSend_eq]
  case offers =>
    refine ⟨?_, fun rank => ?_⟩
    · rw [exec_lineIdle _ hrun hbus htx]
      simp [State.offer, hrun, hactive, htx, hlist]
    · rw [exec_lineIdle _ hrun hbus htx]
      by_cases hrank : rank.toNat < 16 * f.frame.kind.code.toNat + s.ownId.toNat
      · rw [if_pos hrank]
        simp [State.offerAgainst, hlist, arbitrationLost_rankByte, hrank, State.othersSend, State.startMarkRead, hactive]
      · rw [if_neg hrank]
        simp [State.offerAgainst, hlist, arbitrationLost_rankByte, hrank, hactive]
  case receives =>
    refine ⟨?_, fun rank => ?_⟩
    · rw [exec_lineIdle _ hrun hbus htx]
      rcases hnone with h | h
      · simp [State.offer, h]
      · simp only [State.offer, h]
        split <;> rfl
    · rw [exec_lineIdle _ hrun hbus htx, exec_lineIdle _ hrun hbus htx]
      simp only [State.offerAgainst]
      split
      · rfl
      · next f rest hlist =>
        have hbus' : s.mbi.bus ≠ .active := hnone.resolve_right (by simp [hlist])
        rw [if_neg (by simp [hbus'])]

/-! ## A frame transmitted -/

/-- A transmitted frame that is no CLAIM leaves the list; a STATUS with the restarted flag clears it (R10, R93). -/
theorem State.transmitted_of_ne_claim {f : Frame} (s : State) (h : f.kind ≠ .claim) :
    s.transmitted f = { s with
      mbi := Mbi.releaseHeld { s.mbi with
        list := removeKind f.kind s.mbi.list, tec := s.mbi.tec - 1, tx := .none, line := .busy }
      conn := { s.conn with restarted := s.conn.restarted && !f.carriesRestarted } } := by
  cases f with
  | claim p => exact absurd rfl h
  | status p =>
    simp only [State.transmitted, Mbi.sent, Frame.carriesRestarted, Frame.kind, reduceCtorEq, if_false]
    cases p.restartedFlag <;> simp
  | trip p | object p | assent p | closed p | abandon p | release =>
    simp [State.transmitted, Mbi.sent, Frame.carriesRestarted, Frame.kind]

theorem exec_txSuccess {s : State} {k : FrameKind} {f : TxFrame} (hrun : s.power.phase = .run)
    (htx : s.mbi.tx = .sending k) (hf : findKind k s.mbi.list = some f) :
    exec .txSuccess s = conclude s (s.transmitted f.frame) := by
  rw [exec, execTxSuccess, inRun_of_run _ _ hrun]
  simp only [htx, hf]

/-- Settles O14: `transmitted_of_ne_claim`. -/
theorem successfulTransmission : Obligations.SuccessfulTransmission := by
  intro k f s hrun htx hk hf
  obtain ⟨hkind, -⟩ := findKind_some hf
  rw [exec_txSuccess hrun htx hf, State.transmitted_of_ne_claim s (by rwa [hkind]), hkind]
  exact conclude_end _ _

/-- A frame of the own connection that is handed over touches the list alone. -/
theorem State.queueFrame_ownConnection {f : Frame} (s : State) (h : f.kind.isOwnConnection = true) :
    s.queueFrame f = { s with mbi := { s.mbi with list := (s.queueFrame f).mbi.list } } := by
  unfold State.queueFrame
  split
  · rfl
  · cases f <;> first | rfl | simp [Frame.kind, FrameKind.isOwnConnection] at h

/-- Settles O15: by the withdrawal that waits, and the peers that are PRESENT. -/
theorem claimTransmission : Obligations.ClaimTransmission := by
  intro p n s hrun htx hf sent recorded
  have hexec : exec .txSuccess s = conclude s (sent.claimTransmitted p.number s.mbi.withdrawal) :=
    exec_txSuccess hrun htx hf
  have hcapture (v : Half) (hw : s.mbi.withdrawal = none) (hc : s.closure.claim = some ⟨v, .queued⟩) :
      sent.claimTransmitted p.number s.mbi.withdrawal = sent.captureClaim ⟨v, .queued⟩ := by
    have hc' : sent.closure.claim = some ⟨v, .queued⟩ := hc
    simp only [hw, State.claimTransmitted, hc']
  refine ⟨fun v hw hc hne => ?awaits, fun v x hw hc he hx hcl => ?tests, fun hw => ?leave, fun hw => ?trip⟩
  case awaits =>
    have hne' : presentSet sent.roster ≠ [] := hne
    rw [hexec, hcapture v hw hc, State.captureClaim]
    simp only [if_neg hne']
    exact conclude_end _ _
  case tests =>
    have he' : presentSet sent.roster = [] := he
    refine ends_of_conclude (u := sent.captureClaim ⟨v, .queued⟩) (by rw [hexec, hcapture v hw hc]) ?_
    rw [State.captureClaim]
    simp only [if_pos he']
    exact State.windowTest_closesOrAbandons x _ hx hcl
  case leave =>
    obtain ⟨t, ht, hend⟩ := conclude_end s (sent.queueFrame (.abandon ⟨p.number, 4⟩))
    refine ⟨_, t, ?_, hend, State.queueFrame_handed _ _ rfl, State.queueFrame_ownConnection _ rfl⟩
    rw [← ht, hexec, hw]
    rfl
  case trip =>
    rw [hexec, hw]
    exact conclude_end _ _

/-! ## A failed attempt -/

/-- The count of a failed attempt before the frame is judged (R11). -/
def State.attemptCounted (s : State) : State :=
  { s with mbi := { s.mbi with tec := min 255 (s.mbi.tec + 8), tx := .none, line := .busy } }

/-- The frame of a failed attempt judged: withdrawn, dropped, or kept with its count raised (R11, R14). -/
def State.attemptJudged (k : FrameKind) (s : State) : State :=
  if k = .claim ∧ s.mbi.withdrawal.isSome = true then
    { s.attemptCounted with mbi := s.attemptCounted.mbi.takeWithdrawal }
  else s.attemptCounted.countFailure k

/-- The state in which the new TEC is tested (R13, R15). -/
def State.attemptEnded (k : FrameKind) (s : State) : State :=
  { s.attemptJudged k with mbi := (s.attemptJudged k).mbi.releaseHeld }

theorem State.attemptJudged_tec (k : FrameKind) (s : State) :
    (s.attemptJudged k).mbi.tec = min 255 (s.mbi.tec + 8) := by
  unfold State.attemptJudged
  split <;> simp [State.attemptCounted]

theorem State.attemptFailed_eq (k : FrameKind) (race : Race) (s : State) :
    s.attemptFailed k race
      = if 120 ≤ s.mbi.tec then (s.attemptEnded k).enterSilent race else s.attemptEnded k := by
  have htec : (s.attemptEnded k).mbi.tec = min 255 (s.mbi.tec + 8) := by
    simp [State.attemptEnded, State.attemptJudged_tec]
  have hfailed : s.attemptFailed k race
      = if 128 ≤ (s.attemptEnded k).mbi.tec then (s.attemptEnded k).enterSilent race else s.attemptEnded k := rfl
  rw [hfailed, htec]
  exact if_congr (by omega) rfl rfl

theorem exec_txAttemptFailed {s : State} {k : FrameKind} (race : Race) (hrun : s.power.phase = .run)
    (hline : s.mbi.onLine = some k) :
    exec (.txAttemptFailed race) s = conclude s (s.attemptFailed k race) := by
  rw [exec, execTxAttemptFailed, inRun_of_run _ _ hrun]
  simp only [hline]

theorem State.attemptJudged_kept {k : FrameKind} {f : TxFrame} {s : State} (hf : findKind k s.mbi.list = some f)
    (hw : s.mbi.withdrawal = none) (h : f.failed < 7) :
    s.attemptJudged k = { s.attemptCounted with mbi := { s.attemptCounted.mbi with list := bumpFailed k s.mbi.list } } := by
  have hf' : findKind k s.attemptCounted.mbi.list = some f := hf
  unfold State.attemptJudged State.countFailure
  simp only [hw, hf', Option.isSome_none, Bool.false_eq_true, and_false, if_false,
    if_neg (show ¬ 8 ≤ f.failed + 1 by omega)]
  rfl

/-- A frame dropped at its eighth failure, before its block is told. -/
def State.attemptDropped (k : FrameKind) (s : State) : State :=
  ({ s.attemptCounted with mbi := { s.attemptCounted.mbi with list := removeKind k s.mbi.list } } : State).setEvent .txDropped

theorem State.attemptJudged_dropped {k : FrameKind} {f : TxFrame} {s : State} (hf : findKind k s.mbi.list = some f)
    (hw : s.mbi.withdrawal = none) (h : 7 ≤ f.failed) :
    s.attemptJudged k = if k = .claim ∧ s.closure.claim.isSome = true then (s.attemptDropped k).failClaim .dropped
      else s.attemptDropped k := by
  have hf' : findKind k s.attemptCounted.mbi.list = some f := hf
  unfold State.attemptJudged State.countFailure
  simp only [hw, hf', Option.isSome_none, Bool.false_eq_true, and_false, if_false,
    if_pos (show 8 ≤ f.failed + 1 by omega)]
  change (match k, s.closure.claim with
    | .claim, some _ => (s.attemptDropped k).failClaim .dropped
    | _, _ => s.attemptDropped k) = _
  cases k <;> cases s.closure.claim <;> rfl

/-- Settles O16: below TEC 128 the state is `attemptEnded`, by what the judgement does with the frame. -/
theorem failedAttempt : Obligations.FailedAttempt := by
  intro k f race s hrun hf failed
  refine ⟨fun htx => ?collides, fun htx htec => ?fails⟩
  case collides =>
    rw [exec, execCollisionError, inRun_of_run _ _ hrun]
    simp only [htx]
  case fails =>
    have hline : s.mbi.onLine = some k := by rcases htx with h | h <;> simp [Mbi.onLine, h]
    have hexec : exec (.txAttemptFailed race) s = conclude s (s.attemptEnded k) := by
      rw [exec_txAttemptFailed race hrun hline, State.attemptFailed_eq, if_neg (by omega)]
    have hcount : min 255 (s.mbi.tec + 8) = s.mbi.tec + 8 := by omega
    rw [hexec]
    refine ⟨fun hw hn => ?kept, fun hw hn hk => ?dropped, fun hw hn hk hc hcl => ?claimDropped, fun hw hk => ?withdrawn⟩
    case kept =>
      have : s.attemptEnded k = { s with mbi := (failed (bumpFailed k s.mbi.list)).releaseHeld } := by
        rw [State.attemptEnded, State.attemptJudged_kept hf hw hn, State.attemptCounted, hcount]
      rw [this]
      exact conclude_end _ _
    case dropped =>
      have hno : ¬ (k = .claim ∧ s.closure.claim.isSome = true) := by
        rintro ⟨h1, h2⟩
        rcases hk with hk | hk
        · exact hk h1
        · simp [hk] at h2
      have : s.attemptEnded k
          = ({ s with mbi := (failed (removeKind k s.mbi.list)).releaseHeld } : State).setEvent .txDropped := by
        rw [State.attemptEnded, State.attemptJudged_dropped hf hw hn, if_neg hno, State.attemptDropped,
          State.attemptCounted, hcount]
        rfl
      rw [this]
      exact conclude_end _ _
    case claimDropped =>
      have hjudged := State.attemptJudged_dropped hf hw hn
      rw [if_pos ⟨hk, hc⟩] at hjudged
      have hclaiming : (s.attemptDropped k).conn.state = .claiming := hcl
      obtain ⟨hclaim, houtcome, hhold, habandoned, hstate, hchange, -, -, hopen⟩ :=
        State.failClaim_failed .dropped (s.attemptDropped k) (by simp [hclaiming])
      have htec : (s.attemptJudged k).mbi.tec = s.mbi.tec + 8 := by rw [State.attemptJudged_tec, hcount]
      rw [← hjudged] at hclaim houtcome hhold habandoned hstate hchange hopen
      refine ends_of_conclude (u := s.attemptEnded k) rfl ?_
      have hdropped : (s.attemptJudged k).hasEvent .txDropped = true := by
        rw [hjudged]
        exact State.changeConn_hasEvent _ _ _ _ (State.hasEvent_setEvent_of_has _ _ _ (State.hasEvent_setEvent_self _ _))
      refine ⟨hclaim, houtcome, ?_, habandoned, hdropped, hstate, hchange, hopen (by decide) (by decide), ?_, ?_⟩
      · have hid : (s.attemptJudged k).ownId = s.ownId := by rw [hjudged]; simp [State.attemptDropped, State.attemptCounted]
        rw [← hid]
        exact hhold
      · simpa [State.attemptEnded] using htec
      · simp [State.attemptEnded, hjudged, State.attemptDropped, State.attemptCounted]
    case withdrawn =>
      subst hk
      have : s.attemptEnded .claim = { s with
          mbi := Mbi.releaseHeld { failed (removeKind .claim s.mbi.list) with withdrawal := none } } := by
        rw [State.attemptEnded, State.attemptJudged, if_pos ⟨rfl, hw⟩, State.attemptCounted, hcount]
        rfl
      rw [this]
      exact conclude_end _ _

end Sys2Proof.Machine
end

section
/-! PROOF. The service port (R156 to R158, R162, R166, R167, R177 to R183, R195): how a transaction is met, what the reads
answer, and the requests for the configuration, SLEEP, CHECK and the service reset. -/

namespace Sys2Proof.Machine

/-! ## What a transaction meets -/

/-- A request without data in its refusal is a `portRequest`. -/
theorem exec_of_request {c : Instr}
    (h : (∃ f v, c = .configWrite f v) ∨ c = .join ∨ c = .leave ∨ c = .sleep ∨ c = .ackTrip ∨ (∃ m, c = .setHolds m)
      ∨ (∃ m, c = .clearFaults m) ∨ c = .check ∨ c = .serviceReset) :
    ∃ effect, ∀ s, exec c s = portRequest s [] effect := by
  rcases h with ⟨f, v, rfl⟩ | rfl | rfl | rfl | rfl | ⟨m, rfl⟩ | ⟨m, rfl⟩ | rfl | rfl
  all_goals exact ⟨_, fun s => by rw [exec]; rfl⟩

/-- A request is answered like any other command, but for a running self-check. -/
theorem portAnswered_of_portRequest {c : Instr} (h : ∃ effect, ∀ s, exec c s = portRequest s [] effect) :
    ∃ effect, ∀ s, exec c s = portAnswered s effect := by
  obtain ⟨effect, heffect⟩ := h
  exact ⟨_, fun s => by rw [heffect, portRequest]⟩

/-- A well-formed command with port bytes is answered by `portAnswered`. -/
theorem exec_of_portBytes {c : Instr} {bytes : List Byte} (hwf : c.wf = true) (h : encodePort c = some bytes) :
    ∃ effect, ∀ s, exec c s = portAnswered s effect := by
  cases c with
  | unknownCommand code =>
    have hcode : portCodeAssigned code = false := by simpa [Instr.wf] using hwf
    exact ⟨_, fun s => by rw [exec, execUnknownCommand, if_neg (by simp [hcode])]⟩
  | ident | statusRead | sampleRead | rosterRead | faultRead | historyRead | countersRead | closureRead | eventClear
  | eventEnable => exact ⟨_, fun s => by rw [exec]; rfl⟩
  | configCommit current => exact ⟨_, fun s => by rw [exec, execConfigCommit, portRequest]⟩
  | configWrite | join | leave | sleep | ackTrip | setHolds | clearFaults | check | serviceReset =>
    exact portAnswered_of_portRequest (exec_of_request (by simp))
  | _ => cases h

/-- The bytes of a well-formed command are its code and the arguments of that code. -/
theorem encodePort_arguments {c : Instr} {code : Byte} {arguments : List Byte} (hwf : c.wf = true)
    (h : encodePort c = some (code :: arguments)) : portArgumentCount code = arguments.length := by
  suffices hc : Laws.PortBytes.Statement c by
    have hlength := hc _ hwf h
    simp only [List.length_cons, List.headD_cons] at hlength
    omega
  cases c with
  | unknownCommand code => exact Laws.PortBytes.unknownCommand code
  | ident | statusRead | sampleRead | rosterRead | faultRead | historyRead | countersRead | closureRead | configWrite
  | configCommit | join | leave | sleep | ackTrip | setHolds | clearFaults | check | eventClear | eventEnable
  | serviceReset => exact Laws.PortBytes.of_bytes rfl rfl
  | _ => exact Laws.PortBytes.of_no_bytes rfl

theorem State.selected_of_low {s : State} (h : s.port.line ≠ .released) : s.selected = s := if_neg h

theorem portAnswered_of_nothing {s : State} (effect : State → Answer) (hline : s.port.line ≠ .released)
    (h : s.portMeets = .nothing) : portAnswered s effect = .next s := by
  simp only [portAnswered, State.selected_of_low hline, h]

theorem portAnswered_of_waking {s : State} (effect : State → Answer) (hline : s.port.line ≠ .released)
    (h : s.portMeets = .waking) : portAnswered s effect = .next (s.reply .waking []) := by
  simp only [portAnswered, State.selected_of_low hline, h]

theorem State.portMeets_waking {s : State} (hline : s.port.line = .openWaking) (hresponse : s.port.response = none)
    (h : s.power.phase = .run ∨ s.power.phase = .sleep ∨ s.power.phase = .wakePulse ∨ s.power.phase = .powerUp) :
    s.portMeets = .waking := by
  unfold State.portMeets
  rcases h with h | h | h | h <;> simp [hline, hresponse, h]

theorem State.portMeets_nothing {s : State}
    (h : s.port.response.isSome = true ∨ s.port.line = .openReset ∨ s.power.phase = .unpowered
      ∨ s.power.phase = .powerOnReset ∨ s.power.phase = .pinReset ∨ s.power.phase = .serviceReset) :
    s.portMeets = .nothing := by
  unfold State.portMeets
  split
  · rfl
  · next hresponse =>
    split
    all_goals first | rfl | simp_all

/-! ## The reads -/

theorem State.statusLayout_length (s : State) : s.statusLayout.length = 11 := by simp [State.statusLayout, twoBytes]

theorem State.sampleLayout_length (s : State) : s.sampleLayout.length = 12 := by
  unfold State.sampleLayout
  split <;> simp [twoBytes, fourBytes]

theorem RosterEntry.layout_length (e : RosterEntry) : e.layout.length = 14 := by
  unfold RosterEntry.layout
  cases e.status <;> simp [twoBytes]

theorem State.rosterLayout_length (id : StationId) (s : State) : (s.rosterLayout id).length = 14 := by
  unfold State.rosterLayout
  split
  · rfl
  · split
    · rfl
    · exact RosterEntry.layout_length _

theorem State.faultLayout_length (s : State) : s.faultLayout.length = 35 := by
  simp [State.faultLayout, SourceRecord.layout, twoBytes]

theorem historySlot_length (r : Option TripRecord) : (historySlot r).length = 11 := by
  cases r <;> simp [historySlot, twoBytes, fourBytes]

theorem State.historyLayout_length (s : State) : s.historyLayout.length = 47 := by
  simp [State.historyLayout, historySlot_length, twoBytes]

theorem State.countersLayout_length (s : State) : s.countersLayout.length = 20 := by
  simp [State.countersLayout, twoBytes, fourBytes]

theorem ClaimOutcome.layout_length (o : ClaimOutcome) : o.layout.length = 3 := by
  cases o with
  | objected peer reason => cases reason <;> rfl
  | _ => rfl

theorem State.closureLayout_length (s : State) : s.closureLayout.length = 32 := by
  simp [State.closureLayout, ClaimOutcome.layout_length, twoBytes]

/-- A read answers DONE with its bytes, and nothing else changes. -/
theorem exec_of_read {c : Instr} {s : State} {bytes : State → List Byte} {layout : List Byte}
    (hc : exec c s = portAnswered s fun s => .next (s.reply .done (bytes s))) (hbytes : bytes s = layout)
    (h : s.PortJudges) :
    exec c s = .next { s with port := { s.port with response := some ⟨.done, layout⟩ } } := by
  rw [hc, portAnswered_of_judged s _ h, hbytes]
  rfl

theorem exec_rosterRead (id : Byte) {s : State} (h : s.PortJudges) :
    exec (.rosterRead id) s = .next (if id.toNat < 16 then s.reply .done (s.rosterLayout (id.extractLsb' 0 4))
      else s.reply .refusedValue []) := by
  have hid : id.setWidth 4 = id.extractLsb' 0 4 := by
    apply BitVec.eq_of_toNat_eq
    simp
  rw [exec, execRosterRead, portAnswered_of_judged s _ h, State.rosterBytes_eq, hid]

/-- What SDO carries once a response has been given (R177, R178). -/
theorem State.sdoByte_of_response {s : State} {code : Byte} {n : Nat} {r : Result} {data : List Byte}
    (hdriven : s.sdoDriven = true) (h : s.port.response = some ⟨r, data⟩) :
    s.sdoByte code n = some (if n < portArgumentCount code + 1 then 0
      else if n = portArgumentCount code + 1 then r.code
      else data.getD (n - (portArgumentCount code + 2)) 0) := by
  unfold State.sdoByte
  rw [if_pos hdriven, h]
  dsimp only
  by_cases h1 : n ≤ portArgumentCount code
  · rw [if_pos h1, if_pos (by omega)]
  · rw [if_neg h1, if_neg (by omega)]
    obtain ⟨m, rfl⟩ : ∃ m, n = portArgumentCount code + 1 + m := ⟨n - (portArgumentCount code + 1), by omega⟩
    have hm : portArgumentCount code + 1 + m - portArgumentCount code - 1 = m := by omega
    have hm' : portArgumentCount code + 1 + m - (portArgumentCount code + 2) = m - 1 := by omega
    rw [hm, hm']
    cases m with
    | zero => simp
    | succ m => simp

/-- Settles O41: each read answers its bytes, which are the layout's; SDO by whether it is driven and by the response. -/
theorem reads : Obligations.Reads := by
  refine ⟨fun s h => ?_, fun c code arguments n s hwf hbytes => ⟨fun hline => ?undriven, fun hline => ⟨fun hnone => ?silent,
    fun r data hr => ?carries⟩⟩⟩
  · exact ⟨exec_of_read (by rw [exec, execStatusRead]) s.statusBytes_eq h, s.statusLayout_length,
      exec_of_read (by rw [exec, execSampleRead]) s.sampleBytes_eq h, s.sampleLayout_length,
      exec_of_read (by rw [exec, execFaultRead]) s.faultBytes_eq h, s.faultLayout_length,
      exec_of_read (by rw [exec, execHistoryRead]) s.historyBytes_eq h, s.historyLayout_length,
      exec_of_read (by rw [exec, execCountersRead]) s.counterBytes_eq h, s.countersLayout_length,
      exec_of_read (by rw [exec, execClosureRead]) s.closureBytes_eq h, s.closureLayout_length,
      fun id hid => ⟨(exec_rosterRead id h).trans (by rw [if_pos hid]; rfl), s.rosterLayout_length _⟩,
      fun id hid => (exec_rosterRead id h).trans (by rw [if_neg (by omega)]; rfl)⟩
  case undriven =>
    unfold State.sdoByte State.sdoDriven
    rcases hline with h | h <;> simp [h]
  case silent =>
    unfold State.sdoByte State.sdoDriven
    rcases hline with h | h <;> simp [h, hnone]
  case carries =>
    have hdriven : s.sdoDriven = true := by
      unfold State.sdoDriven
      rcases hline with h | h <;> simp [h]
    rw [State.sdoByte_of_response hdriven hr, encodePort_arguments hwf hbytes]
    cases r <;> rfl

/-! ## Where requests are not judged -/

/-- Settles O45: every row of the port is `portAnswered`, and what it meets is read off the phase, the line and the response. -/
theorem requestsNotJudged : Obligations.RequestsNotJudged := by
  refine ⟨fun c s h hcheck hc => ?refused, fun current s h hcheck => ?commit, fun code s h hwf => ?unknown,
    fun c bytes s hwf hbytes => ?_⟩
  case refused =>
    obtain ⟨effect, heffect⟩ := exec_of_request hc
    rw [heffect, portRequest_in_check s _ _ h hcheck]
    rfl
  case commit =>
    rw [exec, execConfigCommit, portRequest_in_check s _ _ h hcheck]
    rfl
  case unknown =>
    have hcode : portCodeAssigned code = false := by simpa [Instr.wf] using hwf
    rw [exec, execUnknownCommand, if_neg (by simp [hcode]), portAnswered_of_judged s _ h]
    rfl
  obtain ⟨effect, heffect⟩ := exec_of_portBytes hwf hbytes
  simp only [heffect]
  refine ⟨fun hline hnone hphase => ?waking, fun hline => ?cut, fun hline hphase => ?reset, fun hline hsome => ?answered,
    fun hline u hu => ?begins, fun hline hsleep => ?wakes⟩
  case waking => exact portAnswered_of_waking _ (by simp [hline]) (State.portMeets_waking hline hnone hphase)
  case cut => exact portAnswered_of_nothing _ (by simp [hline]) (State.portMeets_nothing (by simp [hline]))
  case reset => exact portAnswered_of_nothing _ hline (State.portMeets_nothing (by tauto))
  case answered => exact portAnswered_of_nothing _ hline (State.portMeets_nothing (by tauto))
  case begins =>
    cases hu
    exact portAnswered_of_released s _ hline
  case wakes =>
    have hselect : s.select = { s with
        power := { s.power with phase := .wakePulse, latch := .port, pulseTimer := some 2 }
        port := { s.port with line := .openWaking, response := none } } := by
      unfold State.select
      rw [hsleep]
      simp [State.selectAsleep, hsleep, Power.startPulse, wakePulseMs]
    rw [portAnswered_of_released s _ hline, hselect]
    exact portAnswered_of_waking _ (by simp) (State.portMeets_waking rfl rfl (by simp))

/-! ## CONFIG_WRITE -/

theorem inRange_eq (lo hi : Nat) (v : Half) : inRange lo hi v = decide (lo ≤ v.toNat ∧ v.toNat ≤ hi) := by
  simp [inRange]

theorem fieldAccepts_of_no_field {n : Nat} (v : Half) (h : 22 < n ∨ n = 0) : fieldAccepts n v = false := by
  unfold fieldAccepts
  split <;> first | rfl | omega

/-- Settles O46: the three outcomes of the row, `setField` field by field, and the table of the ranges. -/
theorem configWrite : Obligations.ConfigWrite := by
  intro field value s
  refine ⟨fun h => ?_, fun n v c h1 h2 => ?_, ?_⟩
  · simp only [exec, execConfigWrite, portRequest_of_taken s _ _ h]
    refine ⟨fun hc => ?_, fun hc ha => ?_, fun hc ha => ?_⟩
    · rw [if_pos hc]
      rfl
    · rw [if_neg (by simp [hc]), if_neg (by simp [ha])]
      rfl
    · rw [if_neg (by simp [hc]), if_pos ha]
      rfl
  · interval_cases n <;> rfl
  · refine ⟨fun h => fieldAccepts_of_no_field _ (h.imp_right fun h => by simp [h]), ?_⟩
    have h255 : decide (value = 255) = decide (value.toNat = 255) := by simp [BitVec.toNat_eq]
    simp only [fieldAccepts, inRange_eq, h255, Bool.decide_and, and_self]

/-! ## SLEEP, CHECK and SERVICE_RESET -/

theorem FaultRegister.anyActive_iff (r : FaultRegister) : r.anyActive = true ↔ ∃ src : Source, (r.get src).state = .active := by
  have hall : ∀ src : Source, src ∈ Source.all := by intro src; cases src <;> decide
  simp [FaultRegister.anyActive, hall]

theorem State.handStatus_mbi (s : State) : s.handStatus = { s with mbi := s.handStatus.mbi } := by
  unfold State.handStatus State.queueFrame
  split <;> rfl

/-- A STATUS handed over touches the list and the held STATUS alone. -/
theorem State.handStatus_eq (s : State) :
    s.handStatus = { s with mbi := { s.mbi with
      list := s.handStatus.mbi.list, heldStatus := s.handStatus.mbi.heldStatus } } := by
  unfold State.handStatus State.queueFrame
  split
  · rfl
  · dsimp only [Mbi.handStatus, Mbi.putStatus, Mbi.join]
    (repeat' split) <;> rfl

/-- Settles O49: the branches of the three rows. -/
theorem sleepCheckServiceReset : Obligations.SleepCheckServiceReset := by
  intro s h answer resting
  have hquiet (hq : ∀ src : Source, (s.fault.register.get src).state ≠ .active) : ¬ s.fault.register.anyActive = true := by
    rw [FaultRegister.anyActive_iff]
    exact fun ⟨src, hsrc⟩ => hq src hsrc
  simp only [exec, execSleep, execCheck, execServiceReset, portRequest_of_taken s _ _ h]
  refine ⟨fun hr hq hp => ?sleeps, fun hr hq hp => ?pending, fun hr hq => ?active, fun hr => ?elsewhere, fun hr hp => ?checks,
    fun hr => ?refused, rfl⟩
  case sleeps =>
    rw [if_pos hr, if_neg (hquiet hq), if_neg (by simp [hp])]
    have hstatus := State.handStatus_eq { s with conn := { s.conn with sleepPending := true } }
    exact ends_of_conclude rfl ⟨State.handStatus_handed _, congrArg State.mbi hstatus,
      congrArg (State.reply .done []) (State.handStatus_mbi _)⟩
  case pending =>
    rw [if_pos hr, if_neg (hquiet hq), if_pos hp]
    rfl
  case active =>
    rw [if_pos hr, if_pos ((FaultRegister.anyActive_iff _).2 hq)]
    rfl
  case elsewhere =>
    rw [if_neg hr]
    rfl
  case checks =>
    rw [if_neg (by simp [hp])]
    have hconclude : ∃ t, conclude s (s.startSelfCheck.reply .done []) = .next t
        ∧ EndOfCommand s (s.startSelfCheck.reply .done []) t := conclude_end _ _
    rcases hr with (hc | hc) | hc | hc <;> rw [hc] <;> exact hconclude
  case refused =>
    rcases hr with hp | hc | hc | hc | hc
    · rw [if_pos hp]
      rfl
    all_goals
      rw [hc]
      exact ite_self _

/-! ## ACK_TRIP -/

theorem State.tripStands_iff (s : State) :
    s.tripStands = true ↔
      (∃ src : Source, src.isTrip = true ∧ (s.fault.register.get src).state = .active
        ∧ (s.fault.register.get src).present = true)
      ∨ (s.fault.register.modOv.state = .active ∧ s.fault.register.modUv.state = .active) := by
  have hall : ∀ src : Source, src ∈ Source.all := by intro src; cases src <;> decide
  simp only [State.tripStands, State.isActive, Bool.or_eq_true, List.any_eq_true, hall, true_and, Bool.and_eq_true,
    decide_eq_true_eq, and_assoc]
  exact Iff.rfl

/-- The record of a source after its acknowledgement (R146). -/
theorem State.acknowledge_register (src other : Source) (s : State) :
    (s.acknowledge src).fault.register.get other
      = if other = src ∧ other.isTrip = true ∧ (s.fault.register.get other).state = .active then ⟨.clear, false, none⟩
        else s.fault.register.get other := by
  unfold State.acknowledge State.isActive
  by_cases ho : other = src
  · subst ho
    by_cases h : other.isTrip = true ∧ (s.fault.register.get other).state = .active
    · rw [if_pos (by simpa using h), if_pos ⟨rfl, h⟩, State.setSource_register, FaultRegister.get_set_self]
      rfl
    · rw [if_neg (by simpa using h), if_neg fun hh => h hh.2]
  · have hother : ¬ (other = src ∧ other.isTrip = true ∧ (s.fault.register.get other).state = .active) := fun hh => ho hh.1
    rw [if_neg hother]
    split
    · rw [State.setSource_register, FaultRegister.get_set_of_ne _ _ _ _ ho]
    · rfl

theorem State.acknowledgeAll_register (l : List Source) (other : Source) (s : State) :
    (s.acknowledgeAll l).fault.register.get other
      = if other ∈ l ∧ other.isTrip = true ∧ (s.fault.register.get other).state = .active then ⟨.clear, false, none⟩
        else s.fault.register.get other := by
  induction l generalizing s with
  | nil => simp [State.acknowledgeAll]
  | cons src rest ih =>
    rw [State.acknowledgeAll, ih, State.acknowledge_register]
    by_cases h : other = src ∧ other.isTrip = true ∧ (s.fault.register.get other).state = .active
    · simp [h.1 ▸ h.2.1, h.1 ▸ h.2.2, h.1]
    · rw [if_neg h]
      by_cases hr : other ∈ rest <;> by_cases ho : other = src <;> simp_all

theorem State.acknowledge_fault (src : Source) (s : State) :
    (s.acknowledge src).fault = { s.fault with register := (s.acknowledge src).fault.register } := by
  unfold State.acknowledge
  split
  · rw [State.setSource_fault]
  · rfl

theorem State.acknowledgeAll_fault (l : List Source) (s : State) :
    (s.acknowledgeAll l).fault = { s.fault with register := (s.acknowledgeAll l).fault.register } := by
  induction l generalizing s with
  | nil => rfl
  | cons src rest ih =>
    rw [State.acknowledgeAll, ih, State.acknowledge_fault]

theorem State.reply_entered {new : ConnState} {r : Result} {data : List Byte} {s : State} (h : s.Entered new) :
    (s.reply r data).Entered new := h

/-- Settles O50: the refusals by `tripStands_iff`; the acknowledged station goes back by the joined flag. -/
theorem tripAcknowledgement : Obligations.TripAcknowledgement := by
  intro s h stands
  simp only [exec, execAckTrip, portRequest_of_taken s _ _ h]
  refine ⟨fun hs => ?notTripped, fun hs hst => ?stands, fun hs hst => ?taken⟩
  case notTripped =>
    rw [if_neg hs]
    rfl
  case stands =>
    rw [if_pos hs, if_pos (s.tripStands_iff.2 hst)]
    rfl
  case taken =>
    rw [if_pos hs, if_neg fun hh => hst (s.tripStands_iff.1 hh)]
    have hall : ∀ src : Source, src ∈ Source.all := by intro src; cases src <;> decide
    have hreg := fun src => State.acknowledgeAll_register Source.all src s
    simp only [hall, true_and] at hreg
    have hfault := State.acknowledgeAll_fault Source.all s
    have hstate : (s.acknowledgeAll Source.all).conn.state = .tripped := by simpa using hs
    generalize hc : s.acknowledgeAll Source.all = cleared at hreg hfault hstate
    have hkeeps : cleared.charge = s.charge ∧ cleared.roster = s.roster ∧ cleared.config = s.config
        ∧ cleared.closure.holdOff = s.closure.holdOff ∧ cleared.ownId = s.ownId := by simp [← hc]
    obtain ⟨hcharge, hroster, hconfig, hhold, hid⟩ := hkeeps
    have hback : ((if s.conn.joined = true then cleared.startHoldOff.changeConn .isolated .none
        else cleared.changeConn .detached .none).reply .done []).fault = cleared.fault := by split <;> simp
    refine ends_of_conclude rfl ⟨?_, fun hj => ⟨?_, ?_⟩, fun hj => ⟨?_, ?_⟩, ?_, rfl, ?_, ?_, ?_⟩
    · rw [hback]
      exact hreg
    · rw [if_pos hj]
      exact State.reply_entered (State.changeConn_entered _ _ _ (by simp [hstate]))
    · simp [hj, State.startHoldOff, holdOffMs, hid]
    · rw [if_neg (by simp [hj])]
      exact State.reply_entered (State.changeConn_entered _ _ _ (by simp [hstate]))
    · simp [hj, hhold]
    · rw [hback]
      exact hfault
    all_goals split <;> simpa

end Sys2Proof.Machine
end

section
/-! PROOF. Trips and onsets (R127 to R130, R136 to R144, R148): what a trip leaves unchanged, its TRIP frame and its
record, and an onset by the state of its source, one rule for each way in which it is taken. -/

namespace Sys2Proof.Machine

/-! ## What a trip, an onset and a clearance leave unchanged -/

theorem State.queueFrame_keeps (f : Frame) (s : State) : KeepsSurroundings s (s.queueFrame f) := by
  cases f with
  | trip p =>
    unfold State.queueFrame
    split
    · rfl
    · dsimp only [Mbi.handTrip, Mbi.putTrip, Mbi.join]
      (repeat' split) <;> rfl
  | status p | claim p | object p | assent p | closed p | abandon p | release =>
    exact (State.queueFrame_touches _ s (by simp [Frame.kind])).keeps

theorem State.tripCore_keeps (d : TripCause) (s : State) : KeepsSurroundings s (s.tripCore d) := by
  have hrecord : KeepsSurroundings s (s.openSwitches.recordTrip d s.conn.state) := rfl
  have hevent (u : State) (new : ConnState) :
      KeepsSurroundings u (((u.abortClaim .tripped).changeConn new .none).setEvent .tripTaken) :=
    (((State.abortClaim_touches _ u).trans (State.changeConn_touches _ _ _)).trans (State.setEvent_touches _ _)).keeps
  have hbus (u : State) : KeepsSurroundings u u.takeBusTrip := rfl
  unfold State.tripCore
  dsimp only
  split
  · exact ((hrecord.trans (State.queueFrame_keeps _ _)).trans (hevent _ _)).trans (hbus _)
  · exact (hrecord.trans (State.queueFrame_keeps _ _)).trans (hevent _ _)

theorem State.setSource_keeps (src : Source) (x : SourceRecord) (s : State) : KeepsSurroundings s (s.setSource src x) := by
  have hwritten : KeepsSurroundings s { s with fault := { s.fault with register := s.fault.register.set src x } } := rfl
  unfold State.setSource
  dsimp only
  split
  · exact hwritten.trans (State.handStatus_touches _).keeps
  · exact hwritten

theorem State.cancelSleep_keeps (s : State) : KeepsSurroundings s s.cancelSleep := by
  have hcancelled : KeepsSurroundings s
      (({ s with conn := { s.conn with sleepPending := false } } : State).setEvent .sleepCancelled) := rfl
  unfold State.cancelSleep
  split
  · exact hcancelled.trans (State.handStatus_touches _).keeps
  · rfl

theorem State.postponedOverCurrent_keeps (src : Source) (s : State) :
    KeepsSurroundings s (s.postponedOverCurrent src) := by
  unfold State.postponedOverCurrent
  dsimp only
  split
  · exact ((State.setSource_keeps _ _ s).trans (State.cancelSleep_keeps _)).trans (State.tripCore_keeps _ _)
  · rfl

theorem State.liftClosingHold_keeps (s : State) : KeepsSurroundings s s.liftClosingHold := by
  have hlifted : KeepsSurroundings s { s with fault := { s.fault with closingHold := false } } := rfl
  unfold State.liftClosingHold
  split
  · exact (hlifted.trans (State.postponedOverCurrent_keeps _ _)).trans (State.postponedOverCurrent_keeps _ _)
  · rfl

theorem State.takeTrip_keeps (d : TripCause) (s : State) : KeepsSurroundings s (s.takeTrip d) := by
  unfold State.takeTrip
  split
  · exact (State.tripCore_keeps d s).trans (State.liftClosingHold_keeps _)
  · exact State.tripCore_keeps d s

theorem State.followPathSources_keeps (s : State) : KeepsSurroundings s s.followPathSources := by
  have hpath : KeepsSurroundings s
      { s with switches := s.pathSwitches, conn := { s.conn with path := s.sourcePath } } := rfl
  have hevent (u : State) : KeepsSurroundings u (u.setEvent .stateChange) := rfl
  unfold State.followPathSources
  split
  · rfl
  · dsimp only
    split
    · exact (hpath.trans (hevent _)).trans (State.handStatus_touches _).keeps
    · exact hpath
  all_goals rfl

theorem State.takeAction_keeps (src : Source) (value : Half) (reported : Scope) (s : State) :
    KeepsSurroundings s (s.takeAction src value reported) := by
  unfold State.takeAction
  cases src with
  | modOv | modUv =>
    dsimp only
    split
    · exact State.takeTrip_keeps _ s
    · exact State.followPathSources_keeps s
  | short | tempTrip | busOv | dupId | ocDsg | ocChg | busSilent | rxDegraded => exact State.takeTrip_keeps _ s

/-! ## An onset, by the state of its source -/

theorem State.actsOn_of_committed {s : State} (src : Source) (h : s.committed = true) : s.actsOn src = true := by
  simp [State.actsOn, h]

/-- Before the commit an onset of any source but DUP_ID updates the condition only (R129). -/
theorem State.takeOnset_of_not_acting {src : Source} {s : State} (value : Half) (reported : Scope)
    (h : s.actsOn src = false) :
    s.takeOnset src value reported = s.setSource src { s.fault.register.get src with present := true } := by
  unfold State.takeOnset
  simp only [h, Bool.false_eq_true, if_false]

/-- A hold covers the source: it becomes HELD (R128, R130). -/
theorem State.takeOnset_covered {src : Source} {s : State} (value : Half) (reported : Scope) (h : s.actsOn src = true)
    (hx : (s.fault.register.get src).state = .clear ∨ (s.fault.register.get src).state = .lapsed)
    (hheld : s.isHeld src = true) :
    s.takeOnset src value reported = (s.setSource src ⟨.held, true, some value⟩).setEvent .heldFault := by
  unfold State.takeOnset
  rcases hx with hx | hx <;> simp [h, hx, hheld]

/-- No hold covers the source: it becomes ACTIVE and its action follows (R127, R130, R154). -/
theorem State.takeOnset_armed {src : Source} {s : State} (value : Half) (reported : Scope) (h : s.actsOn src = true)
    (hx : (s.fault.register.get src).state = .clear ∨ (s.fault.register.get src).state = .lapsed)
    (hheld : s.isHeld src = false) :
    s.takeOnset src value reported
      = ((s.setSource src ⟨.active, true, some value⟩).cancelSleep).takeAction src value reported := by
  unfold State.takeOnset
  rcases hx with hx | hx <;> simp [h, hx, hheld]

/-- A further onset of an ACTIVE trip source trips again (R130). -/
theorem State.takeOnset_again {src : Source} {s : State} (value : Half) (reported : Scope) (h : s.actsOn src = true)
    (hx : (s.fault.register.get src).state = .active) (ht : src.isTrip = true) :
    s.takeOnset src value reported = (s.setSource src ⟨.active, true, some value⟩).takeAction src value reported := by
  unfold State.takeOnset
  simp [h, hx, ht]

/-- A further onset of a HELD source, and of an ACTIVE one that is no trip source, updates the condition only (R130). -/
theorem State.takeOnset_noted {src : Source} {s : State} (value : Half) (reported : Scope)
    (hx : (s.fault.register.get src).state = .held
      ∨ (s.fault.register.get src).state = .active ∧ src.isTrip = false) :
    s.takeOnset src value reported = s.setSource src { s.fault.register.get src with present := true } := by
  unfold State.takeOnset
  rcases hx with hx | ⟨hx, ht⟩
  · simp [hx]
  · simp [hx, ht]

theorem State.takeOnset_keeps (src : Source) (value : Half) (reported : Scope) (s : State) :
    KeepsSurroundings s (s.takeOnset src value reported) := by
  have hset (x : SourceRecord) : KeepsSurroundings s (s.setSource src x) := State.setSource_keeps src x s
  have hevent (u : State) : KeepsSurroundings u (u.setEvent .heldFault) := rfl
  by_cases ha : s.actsOn src = true
  · cases hx : (s.fault.register.get src).state with
    | clear | lapsed =>
      cases hheld : s.isHeld src
      · rw [State.takeOnset_armed value reported ha (by simp [hx]) hheld]
        exact ((hset _).trans (State.cancelSleep_keeps _)).trans (State.takeAction_keeps _ _ _ _)
      · rw [State.takeOnset_covered value reported ha (by simp [hx]) hheld]
        exact (hset _).trans (hevent _)
    | active =>
      by_cases ht : src.isTrip = true
      · rw [State.takeOnset_again value reported ha hx ht]
        exact (hset _).trans (State.takeAction_keeps _ _ _ _)
      · rw [State.takeOnset_noted value reported (.inr ⟨hx, by simpa using ht⟩)]
        exact hset _
    | held =>
      rw [State.takeOnset_noted value reported (.inl hx)]
      exact hset _
  · rw [State.takeOnset_of_not_acting value reported (by simpa using ha)]
    exact hset _

theorem State.judgeShort_keeps (current : Nat) (s : State) : KeepsSurroundings s (s.judgeShort current) := by
  have hnoted : KeepsSurroundings s { s with det := { s.det with short := true } } := rfl
  unfold State.judgeShort
  split
  · exact hnoted.trans (State.takeOnset_keeps _ _ _ _)
  · rfl

/-! ## The pending sleep and the trip counter -/

theorem State.cancelSleep_sleepPending (s : State) : s.cancelSleep.conn.sleepPending = false := by
  unfold State.cancelSleep
  split <;> simp_all

theorem State.postponedOverCurrent_sleepPending (src : Source) {s : State} (h : s.conn.sleepPending = false) :
    (s.postponedOverCurrent src).conn.sleepPending = false := by
  unfold State.postponedOverCurrent
  dsimp only
  split
  · simp [State.cancelSleep_sleepPending]
  · exact h

theorem State.liftClosingHold_sleepPending {s : State} (h : s.conn.sleepPending = false) :
    s.liftClosingHold.conn.sleepPending = false := by
  unfold State.liftClosingHold
  split
  · exact State.postponedOverCurrent_sleepPending _ (State.postponedOverCurrent_sleepPending _ h)
  · exact h

theorem State.takeTrip_sleepPending (d : TripCause) {s : State} (h : s.conn.sleepPending = false) :
    (s.takeTrip d).conn.sleepPending = false := by
  unfold State.takeTrip
  split
  · exact State.liftClosingHold_sleepPending (by simpa using h)
  · simpa using h

theorem State.takeAction_sleepPending (src : Source) (value : Half) (reported : Scope) {s : State}
    (h : s.conn.sleepPending = false) : (s.takeAction src value reported).conn.sleepPending = false := by
  unfold State.takeAction
  cases src with
  | modOv | modUv =>
    dsimp only
    split
    · exact State.takeTrip_sleepPending _ h
    · simpa using h
  | short | tempTrip | busOv | dupId | ocDsg | ocChg | busSilent | rxDegraded => exact State.takeTrip_sleepPending _ h

/-- A trip taken raises the trip counter, unless it has saturated (R143). -/
theorem State.TakesTrip.counts {d : TripCause} {s u : State} (h : s.TakesTrip d u) (hc : s.fault.tripCounter < 65535) :
    s.fault.tripCounter < u.fault.tripCounter := by
  obtain ⟨-, -, -, -, -, ⟨_, _, later, -, -, -, hcount, -⟩, -⟩ := h
  omega

/-! ## The TRIP frame -/

theorem FaultCode.code_eq_number (c : FaultCode) : c.code = c.number := by
  cases c with
  | of src => cases src <;> rfl
  | pathConflict => rfl

theorem Scope.code_eq (sc : Scope) : sc.code = if sc = .bus then 1 else 0 := by cases sc <;> rfl

/-- The TRIP that the trip procedure hands over (R139). -/
def TripCause.payload (d : TripCause) : TripPayload :=
  ⟨BitVec.ofNat 8 d.code.number, if d.scope = .bus then 1 else 0, d.value⟩

theorem State.queueFrame_trip_mbi (p : TripPayload) (s : State) :
    (s.queueFrame (.trip p)).mbi = if s.mbi.bus ≠ .active then s.mbi else s.mbi.handTrip p := by
  unfold State.queueFrame
  split <;> rfl

/-- The TRIP held behind the one on the line is the one handed over, merged with one held before (R13, R139). -/
theorem State.tripCore_heldTrip (d : TripCause) (s : State) :
    (s.tripCore d).mbi.heldTrip = (s.queueFrame (.trip d.payload)).mbi.heldTrip := by
  have hheld : (s.tripCore d).mbi.heldTrip = ((s.openSwitches.recordTrip d s.conn.state).queueFrame
      (.trip ⟨BitVec.ofNat 8 d.code.code, d.scope.code, d.value⟩)).mbi.heldTrip := by
    unfold State.tripCore
    dsimp only
    split <;> simp [State.takeBusTrip]
  rw [hheld, FaultCode.code_eq_number, Scope.code_eq, State.queueFrame_trip_mbi, State.queueFrame_trip_mbi]
  rfl

theorem State.queueFrame_trip_held {p : TripPayload} {s : State} (hb : s.mbi.bus = .active)
    (hl : s.mbi.onLine = some .trip) :
    (s.queueFrame (.trip p)).mbi.heldTrip
      = some (match s.mbi.heldTrip with | some old => mergeTrips p old | none => p) := by
  rw [State.queueFrame_trip_mbi, if_neg (by simp [hb]), Mbi.handTrip, if_pos hl] <;> rfl

theorem mergeTrips_payload (d : TripCause) (old : TripPayload) :
    mergeTrips d.payload old = ⟨BitVec.ofNat 8 d.code.number, if d.payload.scope = 1 ∨ old.scope = 1 then 1 else 0, d.value⟩ :=
  rfl

/-! ## The trip procedure -/

theorem appendTrip_length_eq (h : List TripRecord) (r : TripRecord) :
    (appendTrip h r).length = min (h.length + 1) (max 4 h.length) := by
  unfold appendTrip
  split <;> simp <;> omega

theorem appendTrip_dropLast (h : List TripRecord) (r : TripRecord) :
    (appendTrip h r).dropLast = if 4 ≤ h.length then h.drop 1 else h := by
  unfold appendTrip
  split <;> simp

/-- The closure engine's record and quiet period after the trip procedure (R148). -/
theorem State.tripCore_busTrip (d : TripCause) (s : State) :
    (d.scope = .bus → (s.tripCore d).closure.record = none ∧ (s.tripCore d).closure.quiet = some 1000)
      ∧ (d.scope = .localOnly → (s.tripCore d).closure.quiet = s.closure.quiet) := by
  unfold State.tripCore
  dsimp only
  refine ⟨fun h => ?_, fun h => ?_⟩
  · rw [if_pos h]
    exact ⟨rfl, rfl⟩
  · rw [if_neg (by simp [h])]
    simp

/-- Settles O54: `takeTrip` by `takeTrip_takes`, `takeTrip_lifts` and `takeTrip_tellsLast`; the procedure by its Fault Unit
(`tripCore_fault`), its state and its TRIP frame. -/
theorem tripProcedure : Obligations.TripProcedure := by
  refine ⟨fun d s => ⟨State.takeTrip_takes d s, State.takeTrip_keeps d s, fun h => if_neg h,
    fun h => ⟨State.takeTrip_lifts d s h, State.takeTrip_tellsLast d s h⟩⟩, fun d s => ?_⟩
  intro u
  have hfault := State.tripCore_fault d s
  obtain ⟨htripped, hstate, hlockout, houtcome, -⟩ := State.tripCore_takes d s
  obtain ⟨hbus, hlocal⟩ := State.tripCore_busTrip d s
  refine ⟨htripped, hstate, hlockout, by rw [hfault], ?record, ?length, ?dropLast, houtcome, fun hb => ?frame, fun hb => ?held,
    hbus, hlocal, by simp [u], State.tripCore_keeps d s⟩
  case record =>
    obtain ⟨h1, h2, h3, h4, h5, h6, h7⟩ := State.nextRecord_tells d s
    refine ⟨s.nextRecord d, by rw [hfault]; exact appendTrip_getLast? _ _, h1, h2, h3, h4, h5, h6, fun hc => ?_⟩
    rw [h7 (by omega), hfault]
    dsimp only
    omega
  case length => rw [hfault]; exact appendTrip_length_eq _ _
  case dropLast => rw [hfault]; exact appendTrip_dropLast _ _
  case held =>
    rw [State.tripCore_heldTrip, State.queueFrame_of_not_active _ _ hb]
  case frame =>
    refine ⟨State.tripCore_pends d s hb, fun old n before after hl hlist _ _ => ?_, fun hl hnone => ?_, fun old hl hold => ?_⟩
    · have hpends : s.Pends (.trip old) := ⟨n, by simp [hlist]⟩
      have hone : ((if d.scope = .bus then (1 : Byte) else 0) = 1) ↔ d.scope = .bus := by cases d.scope <;> decide
      rw [if_congr (or_congr hone Iff.rfl) rfl rfl]
      exact State.tripCore_merges d old s hb hl hpends
    · rw [State.tripCore_heldTrip, State.queueFrame_trip_held hb hl, hnone]
      rfl
    · rw [State.tripCore_heldTrip, State.queueFrame_trip_held hb hl, hold]
      exact congrArg some (mergeTrips_payload d old)

/-! ## The table of onsets -/

/-- A record written again as it is changes nothing. -/
theorem State.setSource_same (src : Source) (s : State) : s.setSource src (s.fault.register.get src) = s := by
  have hsame : s.fault.register.set src (s.fault.register.get src) = s.fault.register := by cases src <;> rfl
  unfold State.setSource
  simp only [hsame, ne_eq, not_true, if_false]

theorem Source.isPath_of_trip {src : Source} (h : src.isTrip = true ∨ src = .dupId) : src.isPath = false := by
  cases src <;> simp_all [Source.isTrip, Source.isPath]

/-- The action of a path source beside the other one not ACTIVE is to follow the path sources (R136). -/
theorem State.takeAction_follows {src other : Source} {s : State} (value : Half) (reported : Scope)
    (hp : src = .modOv ∧ other = .modUv ∨ src = .modUv ∧ other = .modOv)
    (ho : (s.fault.register.get other).state ≠ .active) : s.takeAction src value reported = s.followPathSources := by
  rcases hp with ⟨rfl, rfl⟩ | ⟨rfl, rfl⟩ <;> simp [State.takeAction, State.isActive, ho]

/-- The switches and the path with one path source ACTIVE and the other not (R81). -/
theorem State.followPathSources_one {src other : Source} {s : State}
    (hp : src = .modOv ∧ other = .modUv ∨ src = .modUv ∧ other = .modOv)
    (hx : (s.fault.register.get src).state = .active) (ho : (s.fault.register.get other).state ≠ .active) :
    (s.conn.state = .closing ∨ s.conn.state = .connected →
      s.followPathSources.switches = { chg := decide (src ≠ .modOv), dsg := decide (src ≠ .modUv) })
    ∧ (s.conn.state = .connected →
      s.followPathSources.conn.path = if src = .modOv then .dischargeOnly else .chargeOnly) := by
  refine ⟨fun hc => ?_, fun hc => ?_⟩
  · rw [State.followPathSources_switches hc]
    rcases hp with ⟨rfl, rfl⟩ | ⟨rfl, rfl⟩ <;> simp [State.pathSwitches, State.isActive, hx, ho]
  · rw [State.followPathSources_path hc]
    rcases hp with ⟨rfl, rfl⟩ | ⟨rfl, rfl⟩ <;> simp [State.sourcePath, State.isActive, hx, ho]

/-- Settles O53: one rule of `takeOnset` for each row of the table. -/
theorem onsetTable : Obligations.OnsetTable := by
  intro src value scope s x u
  refine ⟨fun hc hsrc => ?uncommitted, fun hc hx hheld => ?covered, fun hc hx hheld => ?armed, fun hc hx ht => ?again,
    fun hsrc hx hpresent => ?duplicate, fun other hp hpo hne hc hx hheld => ?path⟩
  case uncommitted =>
    have hu : u = s.setSource src { x with present := true } :=
      State.takeOnset_of_not_acting value scope (by simp [State.actsOn, hc, hsrc])
    rw [hu]
    simp
  case covered =>
    have hu : u = (s.setSource src ⟨.held, true, some value⟩).setEvent .heldFault :=
      State.takeOnset_covered value scope (s.actsOn_of_committed src hc) hx hheld
    rw [hu]
    refine ⟨by simp, State.hasEvent_setEvent_self _ _, by simp, by simp, by simp⟩
  case armed =>
    have ha : s.actsOn src = true := by simpa [State.actsOn] using hc
    refine ⟨State.takeOnset_register_armed src value scope s ha (.inl ⟨hx, hheld⟩), ?_, fun ht => ?_⟩
    · have hu : u = _ := State.takeOnset_armed value scope ha hx hheld
      rw [hu]
      exact State.takeAction_sleepPending _ _ _ (State.cancelSleep_sleepPending _)
    · exact State.takeOnset_takes src value scope s (Source.isPath_of_trip ht) ⟨ha, .inl ⟨hx, hheld⟩⟩
  case again =>
    have ha := s.actsOn_of_committed src hc
    have htakes := State.takeOnset_takes src value scope s (Source.isPath_of_trip (.inl ht)) ⟨ha, .inr ⟨hx, ht⟩⟩
    exact ⟨State.takeOnset_register_armed src value scope s ha (.inr ⟨hx, ht⟩), htakes, htakes.counts⟩
  case duplicate =>
    have hsame : ({ s.fault.register.get src with present := true } : SourceRecord) = s.fault.register.get src := by
      rw [← hpresent]
    have hu : u = s.setSource src { s.fault.register.get src with present := true } :=
      State.takeOnset_noted value scope (.inr ⟨hx, by rw [hsrc]; rfl⟩)
    rw [hu, hsame, State.setSource_same]
  case path =>
    have hpair : src = .modOv ∧ other = .modUv ∨ src = .modUv ∧ other = .modOv := by
      cases src <;> cases other <;> simp_all [Source.isPath]
    refine ⟨State.takeOnset_conflict src other value scope s hpair hc hx hheld, fun ho => ?_⟩
    have hsrc : (((s.setSource src ⟨.active, true, some value⟩).cancelSleep).fault.register.get src).state = .active := by
      simp
    have hother : (((s.setSource src ⟨.active, true, some value⟩).cancelSleep).fault.register.get other).state ≠ .active := by
      simpa [FaultRegister.get_set_of_ne _ _ _ _ hne] using ho
    have hu : u = ((s.setSource src ⟨.active, true, some value⟩).cancelSleep).followPathSources := by
      rw [← State.takeAction_follows value scope hpair hother]
      exact State.takeOnset_armed value scope (s.actsOn_of_committed src hc) hx hheld
    obtain ⟨hswitches, hpath⟩ := State.followPathSources_one hpair hsrc hother
    rw [hu]
    exact ⟨by simp, by simp, fun hs => hswitches (by simpa using hs), fun hs => hpath (by simpa using hs)⟩

end Sys2Proof.Machine
end

section
/-! PROOF. The sample (R95 to R97, R100 to R106, R112 to R116, R120 to R124): the record and its clamped inputs, the charge
account, the detectors, and the reports to the Fault Unit in the order of R114. -/

namespace Sys2Proof.Machine

/-! ## An event once set stays set -/

/-- Every event of `s` is set in `u`. -/
def State.EventsStay (s u : State) : Prop := ∀ e, s.hasEvent e = true → u.hasEvent e = true

theorem State.EventsStay.trans {s u w : State} (h1 : s.EventsStay u) (h2 : u.EventsStay w) : s.EventsStay w :=
  fun e h => h2 e (h1 e h)

theorem State.EventsStay.of_events {s u : State} (h : u.port.events = s.port.events) : s.EventsStay u := fun e he => by
  simpa [State.hasEvent, h] using he

theorem State.setEvent_stay (e : Event) (s : State) : s.EventsStay (s.setEvent e) :=
  fun e' => State.hasEvent_setEvent_of_has e e' s

theorem State.changeConn_stay (new : ConnState) (path : Path) (s : State) : s.EventsStay (s.changeConn new path) :=
  fun e => State.changeConn_hasEvent e new path s

theorem State.EventsStay.refl (s : State) : s.EventsStay s := fun _ h => h

theorem State.queueFrame_stay (f : Frame) (s : State) : s.EventsStay (s.queueFrame f) := by
  have hmbi (m : Mbi) : s.EventsStay { s with mbi := m } := .of_events rfl
  unfold State.queueFrame
  split
  · exact .refl s
  · cases f with
    | object p | assent p =>
      dsimp only
      split
      · exact State.setEvent_stay _ s
      · exact hmbi _
    | status p | trip p | claim p | closed p | abandon p | release => exact hmbi _

theorem State.handStatus_stay (s : State) : s.EventsStay s.handStatus := State.queueFrame_stay _ s

theorem State.tripCore_stay (d : TripCause) (s : State) : s.EventsStay (s.tripCore d) := by
  have hrecord : s.EventsStay (s.openSwitches.recordTrip d s.conn.state) := .of_events rfl
  have hevent (u : State) (new : ConnState) :
      u.EventsStay (((u.abortClaim .tripped).changeConn new .none).setEvent .tripTaken) :=
    (State.EventsStay.of_events (by simp)).trans ((State.changeConn_stay _ _ _).trans (State.setEvent_stay _ _))
  have hbus (u : State) : u.EventsStay u.takeBusTrip := .of_events rfl
  unfold State.tripCore
  dsimp only
  split
  · exact ((hrecord.trans (State.queueFrame_stay _ _)).trans (hevent _ _)).trans (hbus _)
  · exact (hrecord.trans (State.queueFrame_stay _ _)).trans (hevent _ _)

theorem State.setSource_stay (src : Source) (x : SourceRecord) (s : State) : s.EventsStay (s.setSource src x) :=
  .of_events (by simp)

theorem State.cancelSleep_stay (s : State) : s.EventsStay s.cancelSleep := by
  have hcancelled : s.EventsStay (({ s with conn := { s.conn with sleepPending := false } } : State).setEvent
      .sleepCancelled) := fun e he => State.hasEvent_setEvent_of_has _ e _ he
  unfold State.cancelSleep
  split
  · exact hcancelled.trans (State.handStatus_stay _)
  · exact .refl s

theorem State.postponedOverCurrent_stay (src : Source) (s : State) : s.EventsStay (s.postponedOverCurrent src) := by
  unfold State.postponedOverCurrent
  dsimp only
  split
  · exact ((State.setSource_stay _ _ s).trans (State.cancelSleep_stay _)).trans (State.tripCore_stay _ _)
  · exact .refl s

theorem State.liftClosingHold_stay (s : State) : s.EventsStay s.liftClosingHold := by
  have hlifted : s.EventsStay { s with fault := { s.fault with closingHold := false } } := .of_events rfl
  unfold State.liftClosingHold
  split
  · exact (hlifted.trans (State.postponedOverCurrent_stay _ _)).trans (State.postponedOverCurrent_stay _ _)
  · exact .refl s

theorem State.takeTrip_stay (d : TripCause) (s : State) : s.EventsStay (s.takeTrip d) := by
  unfold State.takeTrip
  split
  · exact (State.tripCore_stay d s).trans (State.liftClosingHold_stay _)
  · exact State.tripCore_stay d s

theorem State.followPathSources_stay (s : State) : s.EventsStay s.followPathSources := by
  have hpath : s.EventsStay { s with switches := s.pathSwitches, conn := { s.conn with path := s.sourcePath } } :=
    .of_events rfl
  unfold State.followPathSources
  split
  · exact .of_events rfl
  · dsimp only
    split
    · exact (hpath.trans (State.setEvent_stay _ _)).trans (State.handStatus_stay _)
    · exact hpath
  all_goals exact .refl s

theorem State.takeAction_stay (src : Source) (value : Half) (reported : Scope) (s : State) :
    s.EventsStay (s.takeAction src value reported) := by
  unfold State.takeAction
  cases src with
  | modOv | modUv =>
    dsimp only
    split
    · exact State.takeTrip_stay _ s
    · exact State.followPathSources_stay s
  | short | tempTrip | busOv | dupId | ocDsg | ocChg | busSilent | rxDegraded => exact State.takeTrip_stay _ s

theorem State.takeOnset_stay (src : Source) (value : Half) (reported : Scope) (s : State) :
    s.EventsStay (s.takeOnset src value reported) := by
  have hset (x : SourceRecord) : s.EventsStay (s.setSource src x) := State.setSource_stay src x s
  by_cases ha : s.actsOn src = true
  · cases hx : (s.fault.register.get src).state with
    | clear | lapsed =>
      cases hheld : s.isHeld src
      · rw [State.takeOnset_armed value reported ha (by simp [hx]) hheld]
        exact ((hset _).trans (State.cancelSleep_stay _)).trans (State.takeAction_stay _ _ _ _)
      · rw [State.takeOnset_covered value reported ha (by simp [hx]) hheld]
        exact (hset _).trans (State.setEvent_stay _ _)
    | active =>
      by_cases ht : src.isTrip = true
      · rw [State.takeOnset_again value reported ha hx ht]
        exact (hset _).trans (State.takeAction_stay _ _ _ _)
      · rw [State.takeOnset_noted value reported (.inr ⟨hx, by simpa using ht⟩)]
        exact hset _
    | held =>
      rw [State.takeOnset_noted value reported (.inl hx)]
      exact hset _
  · rw [State.takeOnset_of_not_acting value reported (by simpa using ha)]
    exact hset _

theorem State.takeClearance_stay (src : Source) (s : State) : s.EventsStay (s.takeClearance src) := by
  have hset (x : SourceRecord) : s.EventsStay (s.setSource src x) := State.setSource_stay src x s
  unfold State.takeClearance
  dsimp only
  split
  · exact hset _
  · split
    · exact (hset _).trans (State.followPathSources_stay _)
    · exact hset _
  all_goals exact hset _

theorem State.takeClearances_stay (l : List Source) (s : State) : s.EventsStay (s.takeClearances l) := by
  induction l generalizing s with
  | nil => exact .refl s
  | cons src rest ih => exact (State.takeClearance_stay src s).trans (ih _)

theorem State.takeOnsets_stay (x : Sample) (l : List Source) (s : State) : s.EventsStay (s.takeOnsets x l) := by
  induction l generalizing s with
  | nil => exact .refl s
  | cons src rest ih => exact (State.takeOnset_stay src _ _ s).trans (ih _)

theorem State.judgeSample_stay (x : Sample) (s : State) : s.EventsStay (s.judgeSample x) := by
  have hdet (d : Detectors) : s.EventsStay { s with det := d } := .of_events rfl
  unfold State.judgeSample
  split
  · exact ((hdet _).trans (State.takeClearances_stay _ _)).trans (State.takeOnsets_stay x _ _)
  · exact .refl s

theorem State.beginClaim_stay (s : State) : s.EventsStay s.beginClaim := by
  have hclosure (c : Closure) : s.EventsStay { s with closure := c } := .of_events rfl
  unfold State.beginClaim
  exact ((hclosure _).trans (State.queueFrame_stay _ _)).trans (State.changeConn_stay _ _ _)

theorem State.eligibilityTest_stay (s : State) : s.EventsStay s.eligibilityTest := by
  unfold State.eligibilityTest
  split
  · split
    · exact State.beginClaim_stay s
    · exact State.setEvent_stay _ s
    all_goals exact .refl s
  · exact .refl s

theorem State.retest_stay (s before : State) : s.EventsStay (s.retest before) := by
  unfold State.retest
  split
  · exact State.eligibilityTest_stay s
  · exact .refl s

theorem State.offer_stay (s : State) : s.EventsStay s.offer := .of_events (by simp)

/-! ## The sample taken -/

/-- The sample of a conversion cycle that completes in `s`. -/
def State.sampleOf (i : SampleInputs) (s : State) : Sample := Sample.ofInputs i s.meas.nextCycle

/-- The state with the sample stored and integrated (R97, R101). -/
def State.sampled (i : SampleInputs) (s : State) : State := (s.storeSample (s.sampleOf i)).integrate (s.sampleOf i)

/-- The state in which SAMPLE_COMPLETE ends: the reports and the eligibility test in the order of the race (R97). -/
def State.sampleJudged (i : SampleInputs) : Race → State → State
  | .faultFirst, s => ((s.sampled i).judgeSample (s.sampleOf i)).eligibilityTest
  | .controllerFirst, s => (s.sampled i).eligibilityTest.judgeSample (s.sampleOf i)

theorem exec_sampleComplete (i : SampleInputs) (race : Race) {s : State} (hrun : s.power.phase = .run)
    (hcycle : s.meas.cycleTimer.isSome = true) :
    exec (.sampleComplete i race) s = conclude s (s.sampleJudged i race) := by
  rw [exec, execSampleComplete, inRun_of_run _ _ hrun, if_pos hcycle]
  cases race <;> rfl

/-- The detectors as a sample leaves them: judged from the commit onward (R113). -/
def State.detAfter (i : SampleInputs) (s : State) : Detectors :=
  if s.committed then s.det.judge s.config (s.sampleOf i) else s.det

theorem State.judgeSample_det (x : Sample) (s : State) :
    (s.judgeSample x).det = if s.committed then s.det.judge s.config x else s.det := by
  unfold State.judgeSample
  split <;> simp

@[simp] theorem State.sampled_frame (i : SampleInputs) (s : State) :
    (s.sampled i).config = s.config ∧ (s.sampled i).committed = s.committed ∧ (s.sampled i).ownId = s.ownId
      ∧ (s.sampled i).roster = s.roster ∧ (s.sampled i).det = s.det ∧ (s.sampled i).power = s.power
      ∧ (s.sampled i).port.enables = s.port.enables ∧ (s.sampled i).port.response = s.port.response
      ∧ (s.sampled i).meas = { sample := some (s.sampleOf i), cycleTimer := some 0 } := by
  simp [State.sampled, State.storeSample]

theorem State.sampleJudged_frame (i : SampleInputs) (race : Race) (s : State) :
    (s.sampleJudged i race).meas = { sample := some (s.sampleOf i), cycleTimer := some 0 }
      ∧ (s.sampleJudged i race).charge = (s.sampled i).charge ∧ (s.sampleJudged i race).det = s.detAfter i
      ∧ (s.sampled i).EventsStay (s.sampleJudged i race)
      ∧ (s.sampleJudged i race).power = s.power ∧ (s.sampleJudged i race).config = s.config
      ∧ (s.sampleJudged i race).committed = s.committed ∧ (s.sampleJudged i race).ownId = s.ownId
      ∧ (s.sampleJudged i race).roster = s.roster ∧ (s.sampleJudged i race).port.enables = s.port.enables
      ∧ (s.sampleJudged i race).port.response = s.port.response := by
  have hstay : (s.sampled i).EventsStay (s.sampleJudged i race) := by
    cases race
    · exact (State.eligibilityTest_stay _).trans (State.judgeSample_stay _ _)
    · exact (State.judgeSample_stay _ _).trans (State.eligibilityTest_stay _)
  cases race <;> simp [State.sampleJudged, State.judgeSample_det, State.detAfter] at hstay ⊢ <;> exact hstay

/-- What SAMPLE_COMPLETE leaves of the sample, the charge account, the detectors and all that it does not touch. -/
theorem exec_sampleComplete_taken (i : SampleInputs) (race : Race) {s : State} (hrun : s.power.phase = .run)
    (hcycle : s.meas.cycleTimer.isSome = true) :
    ∃ t, exec (.sampleComplete i race) s = .next t
      ∧ t.meas = { sample := some (s.sampleOf i), cycleTimer := some 0 } ∧ t.charge = (s.sampled i).charge
      ∧ t.det = s.detAfter i ∧ (s.sampled i).EventsStay t
      ∧ t.power = s.power ∧ t.config = s.config ∧ t.committed = s.committed ∧ t.ownId = s.ownId ∧ t.roster = s.roster
      ∧ t.port.enables = s.port.enables ∧ t.port.response = s.port.response := by
  obtain ⟨hmeas, hcharge, hdet, hstay, hrest⟩ := State.sampleJudged_frame i race s
  refine ⟨_, exec_sampleComplete i race hrun hcycle, ?_⟩
  refine ⟨by simpa using hmeas, by simpa using hcharge, by simpa using hdet,
    (hstay.trans (State.retest_stay _ _)).trans (State.offer_stay _), by simpa using hrest⟩

/-! ## The clamped inputs (R96) -/

theorem Sample.ofInputs_vmod (i : SampleInputs) (cycle : BitVec 32) :
    (Sample.ofInputs i cycle).vmod.toNat = min i.vms 65535 := by
  simp only [Sample.ofInputs, BitVec.toNat_ofNat]
  omega

theorem Sample.ofInputs_vbus (i : SampleInputs) (cycle : BitVec 32) :
    (Sample.ofInputs i cycle).vbus.toNat = min i.vbs 65535 := by
  simp only [Sample.ofInputs, BitVec.toNat_ofNat]
  omega

theorem Sample.ofInputs_current (i : SampleInputs) (cycle : BitVec 32) :
    (Sample.ofInputs i cycle).current.toInt = max (-32768) (min 32767 i.isense) := by
  simp only [Sample.ofInputs, BitVec.toInt_ofInt, clampInt]
  rw [Int.bmod_eq_of_le] <;> omega

theorem Sample.ofInputs_temp (i : SampleInputs) (cycle : BitVec 32) :
    (Sample.ofInputs i cycle).temp.toInt = max (-40) (min 125 i.ts) := by
  simp only [Sample.ofInputs, BitVec.toInt_ofInt, clampInt]
  rw [Int.bmod_eq_of_le] <;> omega

/-! ## The charge account (R100 to R106) -/

/-- A counter gains the steps of a sample and stops at its end (R101). -/
theorem chargeAdd_total (amount rem n : Nat) :
    (chargeAdd amount rem n).1 * 25000 + (chargeAdd amount rem n).2
      = min (4294967295 * 25000) (amount * 25000 + rem + n) := by
  unfold chargeAdd stepsPerAs counterMax
  dsimp only
  split
  · dsimp only
    omega
  · dsimp only
    omega

/-- The accumulator moves by the steps of a sample, clamped to 0 and to the capacity (R102). -/
theorem accumulatorMove_total (capacity amount rem : Nat) (n : Int) :
    (((accumulatorMove capacity amount rem n).1 * 25000 + (accumulatorMove capacity amount rem n).2 : Nat) : Int)
      = max 0 (min ((capacity * 25000 : Nat) : Int) (((amount * 25000 + rem : Nat) : Int) + n)) := by
  unfold accumulatorMove stepsPerAs
  dsimp only
  split
  · dsimp only
    omega
  · split
    · dsimp only
      omega
    · dsimp only
      omega

/-- The charge account moved by a sample and its rest timer, before a recalibration (R101, R102, R105). -/
def State.chargeMoved (i : SampleInputs) (s : State) : Charge :=
  let n := (s.sampleOf i).current.toInt
  ((s.charge.count n).move s.config.capacityAs n).timeRest s.committed (fieldNat s.config.restCurrent) n

theorem State.sampled_charge_of_moved {i : SampleInputs} {s : State}
    (h : s.committed = true → (s.chargeMoved i).recalibration s.config (s.sampleOf i).vmod = none) :
    (s.sampled i).charge = s.chargeMoved i := by
  unfold State.sampled State.integrate
  dsimp only
  split
  · next hc =>
    have hnone : (s.chargeMoved i).recalibration s.config (s.sampleOf i).vmod = none := h hc
    unfold State.chargeMoved at hnone
    simp only [State.storeSample] at hc ⊢
    rw [hnone]
    rfl
  · rfl

theorem State.sampled_of_recalibration {i : SampleInputs} {amount : Nat} {s : State} (hc : s.committed = true)
    (h : (s.chargeMoved i).recalibration s.config (s.sampleOf i).vmod = some amount) :
    (s.sampled i).charge
        = { s.chargeMoved i with accAs := amount, accRem := 0, levelValid := true, rest := 0 }
      ∧ (s.sampled i).hasEvent .levelRecal = true := by
  have hsampled : s.sampled i
      = ({ s.storeSample (s.sampleOf i) with charge := s.chargeMoved i } : State).recalibrate amount := by
    unfold State.chargeMoved at h
    unfold State.sampled State.integrate State.chargeMoved
    simp only [State.storeSample, hc, if_true] at h ⊢
    rw [h]
  rw [hsampled, State.recalibrate_charge]
  refine ⟨rfl, ?_⟩
  unfold State.recalibrate
  dsimp only
  split
  · exact State.handStatus_stay _ _ (State.hasEvent_setEvent_self _ _)
  · exact State.hasEvent_setEvent_self _ _

theorem Charge.move_frame (capacity : Nat) (n : Int) (c : Charge) :
    (c.move capacity n).inAs = c.inAs ∧ (c.move capacity n).inRem = c.inRem ∧ (c.move capacity n).outAs = c.outAs
      ∧ (c.move capacity n).outRem = c.outRem ∧ (c.move capacity n).levelValid = c.levelValid
      ∧ (c.move capacity n).rest = c.rest := by
  unfold Charge.move
  split <;> simp

theorem Charge.timeRest_frame (committed : Bool) (restCurrent : Nat) (n : Int) (c : Charge) :
    (c.timeRest committed restCurrent n).inAs = c.inAs ∧ (c.timeRest committed restCurrent n).inRem = c.inRem
      ∧ (c.timeRest committed restCurrent n).outAs = c.outAs ∧ (c.timeRest committed restCurrent n).outRem = c.outRem
      ∧ (c.timeRest committed restCurrent n).accAs = c.accAs ∧ (c.timeRest committed restCurrent n).accRem = c.accRem
      ∧ (c.timeRest committed restCurrent n).levelValid = c.levelValid := by
  unfold Charge.timeRest
  split <;> simp

theorem Charge.count_frame (n : Int) (c : Charge) :
    (c.count n).accAs = c.accAs ∧ (c.count n).accRem = c.accRem ∧ (c.count n).levelValid = c.levelValid
      ∧ (c.count n).rest = c.rest := by
  unfold Charge.count
  (repeat' split) <;> simp

theorem Charge.count_in (n : Int) (c : Charge) :
    (c.count n).inAs * 25000 + (c.count n).inRem
      = if 0 < n then min (4294967295 * 25000) (c.inAs * 25000 + c.inRem + n.toNat) else c.inAs * 25000 + c.inRem := by
  unfold Charge.count
  split
  · exact chargeAdd_total _ _ _
  · split <;> rfl

theorem Charge.count_out (n : Int) (c : Charge) :
    (c.count n).outAs * 25000 + (c.count n).outRem
      = if n < 0 then min (4294967295 * 25000) (c.outAs * 25000 + c.outRem + (-n).toNat)
        else c.outAs * 25000 + c.outRem := by
  unfold Charge.count
  by_cases hpos : 0 < n
  · rw [if_pos hpos, if_neg (by omega)]
  · rw [if_neg hpos]
    split
    · have habs : n.natAbs = (-n).toNat := by omega
      rw [habs]
      exact chargeAdd_total _ _ _
    · rfl

/-- The counters are not touched by a recalibration. -/
theorem State.sampled_counters (i : SampleInputs) (s : State) :
    (s.sampled i).charge.inAs = (s.charge.count (s.sampleOf i).current.toInt).inAs
      ∧ (s.sampled i).charge.inRem = (s.charge.count (s.sampleOf i).current.toInt).inRem
      ∧ (s.sampled i).charge.outAs = (s.charge.count (s.sampleOf i).current.toInt).outAs
      ∧ (s.sampled i).charge.outRem = (s.charge.count (s.sampleOf i).current.toInt).outRem := by
  have hmoved : (s.chargeMoved i).inAs = (s.charge.count (s.sampleOf i).current.toInt).inAs
      ∧ (s.chargeMoved i).inRem = (s.charge.count (s.sampleOf i).current.toInt).inRem
      ∧ (s.chargeMoved i).outAs = (s.charge.count (s.sampleOf i).current.toInt).outAs
      ∧ (s.chargeMoved i).outRem = (s.charge.count (s.sampleOf i).current.toInt).outRem := by
    simp only [State.chargeMoved, Charge.timeRest_frame, Charge.move_frame, and_self]
  by_cases hc : s.committed = true
  · cases h : (s.chargeMoved i).recalibration s.config (s.sampleOf i).vmod with
    | none =>
      rw [State.sampled_charge_of_moved fun _ => h]
      exact hmoved
    | some amount =>
      rw [(State.sampled_of_recalibration hc h).1]
      exact hmoved
  · rw [State.sampled_charge_of_moved fun hcom => absurd hcom hc]
    exact hmoved

/-- Settles O32: the record by `ofInputs`, the counters by `count_in` and `count_out`. -/
theorem sampleIsTaken : Obligations.SampleIsTaken := by
  intro i race s hrun hcycle
  obtain ⟨t, ht, hmeas, hcharge, -, -, hpower, hconfig, hcommitted, hid, hroster, henables, hresponse⟩ :=
    exec_sampleComplete_taken i race hrun hcycle
  obtain ⟨hin, hinRem, hout, houtRem⟩ := State.sampled_counters i s
  refine ⟨t, s.sampleOf i, ht, hmeas, Sample.ofInputs_vmod _ _, Sample.ofInputs_vbus _ _, Sample.ofInputs_current _ _,
    Sample.ofInputs_temp _ _, ?cycle, ?inCounter, ?outCounter, hpower, hconfig, hcommitted, hid, hroster, henables,
    hresponse⟩
  case cycle =>
    change s.meas.nextCycle = _
    unfold Meas.nextCycle
    cases s.meas.sample <;> rfl
  case inCounter =>
    rw [hcharge, hin, hinRem]
    exact Charge.count_in _ _
  case outCounter =>
    rw [hcharge, hout, houtRem]
    exact Charge.count_out _ _

/-- Settles O33: `chargeMoved`, and the recalibration by the rest timer and the voltage. -/
theorem accumulatorFollowsTheSample : Obligations.AccumulatorFollowsTheSample := by
  intro i race s hrun hcycle n vmod rest moved
  obtain ⟨t, ht, -, hcharge, -, hstay, -⟩ := exec_sampleComplete_taken i race hrun hcycle
  have hn : (s.sampleOf i).current.toInt = n := Sample.ofInputs_current _ _
  have hv : (s.sampleOf i).vmod.toNat = vmod := Sample.ofInputs_vmod _ _
  have hcapacity : s.config.capacityAs = 360 * fieldNat s.config.capacity := Nat.mul_comm _ _
  have hlevel : (s.chargeMoved i).levelValid = s.charge.levelValid := by
    simp only [State.chargeMoved, Charge.timeRest_frame, Charge.move_frame, Charge.count_frame]
  have hrest : (s.chargeMoved i).rest = if s.committed then rest else s.charge.rest := by
    simp only [State.chargeMoved, hn, Charge.timeRest]
    split <;> simp only [Charge.move_frame, Charge.count_frame, rest, restMs]
  have hempty : s.config.emptyCount = 5 * fieldNat s.config.emptyVoltage := Nat.mul_comm _ _
  have hfull : s.config.fullCount = 5 * fieldNat s.config.fullVoltage := Nat.mul_comm _ _
  have hrecal (hc : s.committed = true) (hr : rest = 30000) :
      (s.chargeMoved i).recalibration s.config (s.sampleOf i).vmod
        = if vmod ≤ 5 * fieldNat s.config.emptyVoltage then some 0
          else if 5 * fieldNat s.config.fullVoltage ≤ vmod then some s.config.capacityAs else none := by
    rw [Charge.recalibration, restMs, hrest, if_pos hc, if_pos hr, hv, hempty, hfull]
  refine ⟨t, ht, fun hc => ?uncommitted, fun h => ?moves, fun hc hr he => ?empty, fun hc hr he hf => ?full⟩
  case uncommitted =>
    rw [hcharge, State.sampled_charge_of_moved fun h => by simp [hc] at h, hrest, if_neg (by simp [hc])]
  case moves =>
    have hnone (hc : s.committed = true) : (s.chargeMoved i).recalibration s.config (s.sampleOf i).vmod = none := by
      by_cases hr : rest = 30000
      · rw [hrecal hc hr]
        rcases h with h | h | ⟨h1, h2⟩
        · simp [h] at hc
        · omega
        · rw [if_neg (by omega), if_neg (by omega)]
      · rw [Charge.recalibration, restMs, hrest, if_pos hc, if_neg hr]
    rw [hcharge, State.sampled_charge_of_moved hnone]
    refine ⟨hlevel, fun hvalid => ?_, fun hinvalid => ?_, fun hc => by rw [hrest, if_pos hc]⟩
    · have hmove := accumulatorMove_total s.config.capacityAs s.charge.accAs s.charge.accRem n
      simp only [State.chargeMoved, hn, Charge.timeRest_frame, Charge.move, Charge.count_frame, hvalid, if_true]
      exact hmove
    · simp only [State.chargeMoved, Charge.timeRest_frame, Charge.move, Charge.count_frame, hinvalid, Bool.false_eq_true,
        if_false, and_self]
  case empty =>
    obtain ⟨hsampled, hevent⟩ := State.sampled_of_recalibration (i := i) (amount := 0) hc
      (by rw [hrecal hc hr, if_pos he])
    rw [hcharge, hsampled]
    exact ⟨rfl, rfl, rfl, rfl, hstay _ hevent⟩
  case full =>
    obtain ⟨hsampled, hevent⟩ := State.sampled_of_recalibration (i := i) (amount := s.config.capacityAs) hc
      (by rw [hrecal hc hr, if_neg (by omega), if_pos hf])
    rw [hcharge, hsampled]
    exact ⟨hcapacity, rfl, rfl, rfl, hstay _ hevent⟩

/-! ## The detectors -/

/-- Settles O34: the two over-current steps of `judge`. -/
theorem overCurrentRuns : Obligations.OverCurrentRuns := by
  intro i race s hrun hcycle n runLength
  obtain ⟨t, ht, -, -, hdet, -⟩ := exec_sampleComplete_taken i race hrun hcycle
  have hn : (s.sampleOf i).current.toInt = n := Sample.ofInputs_current _ _
  have hdsg : (s.config.ocDsgCount : Int) = (100 * fieldNat s.config.ocDsgLimit : Nat) := by
    rw [ConfigRecord.ocDsgCount, Nat.mul_comm]
  have hchg : (s.config.ocChgCount : Int) = (100 * fieldNat s.config.ocChgLimit : Nat) := by
    rw [ConfigRecord.ocChgCount, Nat.mul_comm]
  refine ⟨t, ht, fun hc => ?_, fun hc => ?_⟩
  · rw [hdet, State.detAfter, if_neg (by simp [hc])]
  · rw [hdet, State.detAfter, if_pos hc]
    simp only [Detectors.judge, overCurrentStep, hn, hdsg, hchg]
    refine ⟨fun h => ?_, fun h => ?_, fun h => ?_, fun h => ?_⟩
    · simp only [decide_eq_true h, if_true]
      exact ⟨fun hp => by simp [hp], fun hp => by rw [hp]; exact ⟨rfl, rfl⟩⟩
    · simp only [decide_eq_false (show ¬ n < -((100 * fieldNat s.config.ocDsgLimit : Nat) : Int) by omega), Bool.false_eq_true,
        if_false, and_self]
    · simp only [decide_eq_true h, if_true]
      exact ⟨fun hp => by simp [hp], fun hp => by rw [hp]; exact ⟨rfl, rfl⟩⟩
    · simp only [decide_eq_false (show ¬ ((100 * fieldNat s.config.ocChgLimit : Nat) : Int) < n by omega), Bool.false_eq_true,
        if_false, and_self]

end Sys2Proof.Machine
end

section
/-! PROOF. The conditions with a band and the handover of a sample's reports (R97, R112 to R114, R120 to R124). -/

namespace Sys2Proof.Machine

/-! ## The eligibility test made twice, and beside the detectors -/

theorem State.setEvent_setEvent (e : Event) (s : State) : (s.setEvent e).setEvent e = s.setEvent e := by
  simp only [State.setEvent, BitVec.or_assoc, BitVec.or_self]

/-- The test made at once again changes nothing: a claim begun has left ISOLATED, and an event set stays set. -/
theorem State.eligibilityTest_twice (s : State) : s.eligibilityTest.eligibilityTest = s.eligibilityTest := by
  by_cases he : s.Eligible
  · rw [State.eligibilityTest_of_eligible s he]
    have hleft : s.beginClaim.conn.state ≠ .isolated := by
      simp [State.beginClaim, State.changeConn, he.1.1, State.handStatus, State.setEvent]
    exact State.eligibilityTest_of_fails _ (fun h => hleft h.1.1) (fun h => hleft h.1.1)
  · by_cases hc : s.SenseConflict
    · have hagain : (s.setEvent .busSenseConflict).SenseConflict :=
        (State.senseConflict_of_sameView s (s.setEvent .busSenseConflict) rfl).mpr hc
      rw [State.eligibilityTest_of_conflict s hc, State.eligibilityTest_of_conflict _ hagain, State.setEvent_setEvent]
    · rw [State.eligibilityTest_of_fails s he hc, State.eligibilityTest_of_fails s he hc]

theorem State.eligibilityTest_retest (s before : State) : s.eligibilityTest.retest before = s.eligibilityTest := by
  rw [State.retest, State.eligibilityTest_twice, ite_self]

theorem State.queueFrame_det (f : Frame) (d : Detectors) (s : State) :
    ({ s with det := d } : State).queueFrame f = { s.queueFrame f with det := d } := by
  unfold State.queueFrame
  by_cases hb : s.mbi.bus = .active
  · simp only [hb, ne_eq, not_true_eq_false, if_false]
    cases f with
    | object p | assent p =>
      by_cases hl : 4 ≤ answersPending s.mbi.list
      · simp only [hl, if_true]
        rfl
      · simp only [hl, if_false]
    | status p | trip p | claim p | closed p | abandon p | release => rfl
  · simp only [hb, ne_eq, not_false_eq_true, if_true]

theorem State.handStatus_det (d : Detectors) {s u : State} (h : u = { s with det := d }) :
    u.handStatus = { s.handStatus with det := d } := by
  rw [h]
  exact State.queueFrame_det (.status s.buildStatus) d s

theorem State.changeConn_det (new : ConnState) (path : Path) (d : Detectors) (s : State) :
    ({ s with det := d } : State).changeConn new path = { s.changeConn new path with det := d } := by
  unfold State.changeConn
  by_cases hnew : s.conn.state = new
  · simp only [hnew, if_true]
  · simp only [hnew, if_false]
    exact State.handStatus_det d rfl

theorem State.beginClaim_det (d : Detectors) (s : State) :
    ({ s with det := d } : State).beginClaim = { s.beginClaim with det := d } := by
  unfold State.beginClaim
  dsimp only
  rw [← State.changeConn_det, ← State.queueFrame_det]

/-- The eligibility test looks at no detector and changes none. -/
theorem State.eligibilityTest_det (d : Detectors) (s : State) :
    ({ s with det := d } : State).eligibilityTest = { s.eligibilityTest with det := d } := by
  have hview : ({ s with det := d } : State).claimView = s.claimView := rfl
  by_cases he : s.Eligible
  · rw [State.eligibilityTest_of_eligible s he,
      State.eligibilityTest_of_eligible _ ((State.eligible_of_sameView s _ hview).mpr he), State.beginClaim_det]
  · have he' : ¬ ({ s with det := d } : State).Eligible := (State.eligible_of_sameView s _ hview).not.mpr he
    by_cases hc : s.SenseConflict
    · rw [State.eligibilityTest_of_conflict s hc,
        State.eligibilityTest_of_conflict _ ((State.senseConflict_of_sameView s _ hview).mpr hc)]
      rfl
    · rw [State.eligibilityTest_of_fails s he hc,
        State.eligibilityTest_of_fails _ he' ((State.senseConflict_of_sameView s _ hview).not.mpr hc)]

/-! ## The reports of a sample -/

theorem State.takeClearances_eq_foldl (l : List Source) (s : State) :
    s.takeClearances l = l.foldl (fun u src => u.takeClearance src) s := by
  induction l generalizing s with
  | nil => rfl
  | cons src rest ih => exact ih _

theorem State.takeOnsets_eq_foldl (x : Sample) (l : List Source) (s : State) :
    s.takeOnsets x l = l.foldl (fun u src => u.takeOnset src (x.measured src) .localOnly) s := by
  induction l generalizing s with
  | nil => rfl
  | cons src rest ih => exact ih _

theorem takeOnsets_takeClearances_eq_report (x : Sample) (old new : Detectors) (s : State) :
    (s.takeClearances (old.cleared new)).takeOnsets x (old.arisen new) = reportSample x old new s := by
  simp only [State.takeClearances_eq_foldl, State.takeOnsets_eq_foldl, Detectors.cleared, Detectors.arisen,
    List.foldl_filter, reportSample, Source.sampled, List.foldl_cons, List.foldl_nil, Detectors.condition,
    Sample.measured, Bool.and_eq_true, Bool.not_eq_true']

theorem reportSample_unchanged (x : Sample) (d : Detectors) (s : State) : reportSample x d d s = s := by
  have hno (b : Bool) : ¬ (b = true ∧ b = false) ∧ ¬ (b = false ∧ b = true) := by cases b <;> decide
  simp only [reportSample, List.foldl_cons, List.foldl_nil, (hno _).1, (hno _).2, if_false]

/-- The detectors after the sample, and the reports of what has changed in them (R113, R114). -/
theorem State.judgeSample_eq_report (x : Sample) (s : State) {d : Detectors}
    (hd : d = if s.committed then s.det.judge s.config x else s.det) :
    s.judgeSample x = reportSample x s.det d { s with det := d } := by
  unfold State.judgeSample
  by_cases hc : s.committed = true
  · rw [if_pos hc] at hd
    rw [if_pos hc, hd]
    exact takeOnsets_takeClearances_eq_report x _ _ _
  · rw [if_neg hc] at hd
    rw [if_neg hc, hd, reportSample_unchanged]

/-! ## The sample as it is reported -/

/-- The state in which the reports of a sample begin: stored, integrated, the detectors judged. -/
def State.reporting (i : SampleInputs) (s : State) : State := { s.sampled i with det := s.detAfter i }

theorem State.recalibrate_eq (amount : Nat) (s : State) :
    s.recalibrate amount = { s with
      charge := (s.recalibrate amount).charge
      mbi := { s.mbi with
        list := (s.recalibrate amount).mbi.list, heldStatus := (s.recalibrate amount).mbi.heldStatus }
      port := { s.port with events := (s.recalibrate amount).port.events } } := by
  unfold State.recalibrate
  dsimp only
  split
  · rw [State.handStatus_eq]
    rfl
  · rfl

theorem State.sampled_eq (i : SampleInputs) (s : State) :
    s.sampled i = { s with
      meas := { sample := some (s.sampleOf i), cycleTimer := some 0 }
      charge := (s.sampled i).charge
      mbi := { s.mbi with list := (s.sampled i).mbi.list, heldStatus := (s.sampled i).mbi.heldStatus }
      port := { s.port with events := (s.sampled i).port.events } } := by
  unfold State.sampled State.integrate
  dsimp only
  split
  · split
    · rw [State.recalibrate_eq]
      rfl
    · rfl
  · rfl

theorem State.sampleJudged_faultFirst (i : SampleInputs) (s : State) :
    s.sampleJudged i .faultFirst
      = (reportSample (s.sampleOf i) s.det (s.detAfter i) (s.reporting i)).eligibilityTest := by
  have hd : s.detAfter i = if (s.sampled i).committed then (s.sampled i).det.judge (s.sampled i).config (s.sampleOf i)
      else (s.sampled i).det := by simp [State.detAfter]
  have hreport := State.judgeSample_eq_report (s.sampleOf i) (s.sampled i) hd
  rw [show (s.sampled i).det = s.det by simp] at hreport
  rw [State.sampleJudged, hreport]
  rfl

theorem State.sampleJudged_controllerFirst (i : SampleInputs) (s : State) :
    s.sampleJudged i .controllerFirst
      = reportSample (s.sampleOf i) s.det (s.detAfter i) (s.reporting i).eligibilityTest := by
  have hd : s.detAfter i = if (s.sampled i).eligibilityTest.committed
      then (s.sampled i).eligibilityTest.det.judge (s.sampled i).eligibilityTest.config (s.sampleOf i)
      else (s.sampled i).eligibilityTest.det := by simp [State.detAfter]
  have hreport := State.judgeSample_eq_report (s.sampleOf i) (s.sampled i).eligibilityTest hd
  rw [show (s.sampled i).eligibilityTest.det = s.det by simp, ← State.eligibilityTest_det] at hreport
  exact hreport

/-- A condition with a band, by what its onset and its clearance say (R120 to R123). -/
theorem bandStep_eq (present : Bool) {onset clearance comes stays : Prop} [Decidable onset] [Decidable clearance]
    [Decidable comes] [Decidable stays] (ho : onset ↔ comes) (hc : ¬ clearance ↔ stays) :
    bandStep present (decide onset) (decide clearance) = if present then decide stays else decide comes := by
  cases present
  · simp [bandStep, ho]
  · simp [bandStep, ← hc]

/-- Settles O35: the band steps of `judge`, and the reports in both orders of the race. -/
theorem bandConditions : Obligations.BandConditions := by
  refine ⟨fun i race s hrun hcycle hcommitted => ?bands, fun i race s hrun hcycle => ?reports⟩
  case bands =>
    intro vmod vbus temp limit
    obtain ⟨t, ht, -, -, hdet, -⟩ := exec_sampleComplete_taken i race hrun hcycle
    have hv : (s.sampleOf i).vmod.toNat = vmod := Sample.ofInputs_vmod _ _
    have hb : (s.sampleOf i).vbus.toNat = vbus := Sample.ofInputs_vbus _ _
    have ht' : (s.sampleOf i).temp.toInt = temp := Sample.ofInputs_temp _ _
    rw [State.detAfter, if_pos hcommitted] at hdet
    refine ⟨t, ht, ?modOv, ?modUv, ?tempTrip, ?busOv, by rw [hdet, Detectors.judge], by rw [hdet, Detectors.judge]⟩
    all_goals rw [hdet, Detectors.judge]
    case modOv =>
      exact bandStep_eq _ (by rw [hv, ConfigRecord.ovTripCount]; omega) (by rw [hv, ConfigRecord.ovReleaseCount]; omega)
    case modUv =>
      exact bandStep_eq _ (by rw [hv, ConfigRecord.uvTripCount]; omega) (by rw [hv, ConfigRecord.uvReleaseCount]; omega)
    case tempTrip => exact bandStep_eq _ (by rw [ht']; rfl) (by rw [ht', ConfigRecord.tempReleaseC]; omega)
    case busOv =>
      exact bandStep_eq _ (by rw [hb, ConfigRecord.busOvCount]; omega)
        (by rw [hb, ConfigRecord.busOvReleaseCount]; omega)
  case reports =>
    obtain ⟨t, ht, hmeas, hcharge, hdet, -⟩ := exec_sampleComplete_taken i race hrun hcycle
    have hconclude : conclude s (s.sampleJudged i race) = .next t := by
      rw [← ht, exec_sampleComplete i race hrun hcycle]
    refine ⟨s.sampleOf i, s.reporting i, t, ht, by rw [hmeas], Sample.ofInputs_vmod _ _, Sample.ofInputs_vbus _ _,
      Sample.ofInputs_current _ _, Sample.ofInputs_temp _ _, ?before, ?faultFirst, ?controllerFirst⟩
    case before =>
      rw [hmeas, hcharge, hdet]
      unfold State.reporting
      conv_lhs => rw [State.sampled_eq]
    case faultFirst =>
      rintro rfl
      have hnext : t = ((s.sampleJudged i .faultFirst).retest s).offer := (Host.Outcome.next.inj hconclude).symm
      rw [hdet, hnext, State.sampleJudged_faultFirst, State.eligibilityTest_retest]
    case controllerFirst =>
      rintro rfl
      obtain ⟨t', ht', hend⟩ := conclude_end s (s.sampleJudged i .controllerFirst)
      rw [hdet, ← State.sampleJudged_controllerFirst]
      rwa [Host.Outcome.next.inj (hconclude.symm.trans ht')]

end Sys2Proof.Machine
end

section
/-! PROOF. The short comparator (R117, R118), the end of a self-check (R163) and the wake sources (R125, R156 to R158). -/

namespace Sys2Proof.Machine

/-! ## A record written beside an unchanged held-fault-present flag -/

theorem FaultRegister.heldPresent_set {src : Source} {x : SourceRecord} {r : FaultRegister}
    (h : x.heldOrLapsed = (r.get src).heldOrLapsed) : (r.set src x).heldPresent = r.heldPresent := by
  have hsource (other : Source) : ((r.set src x).get other).heldOrLapsed = (r.get other).heldOrLapsed := by
    by_cases ho : other = src
    · rw [ho, FaultRegister.get_set_self, h]
    · rw [FaultRegister.get_set_of_ne _ _ _ _ ho]
  simp only [FaultRegister.heldPresent, hsource]

/-- No STATUS is handed over where the flag stays as it is (R135). -/
theorem State.setSource_of_sameHeld {src : Source} {x : SourceRecord} {s : State}
    (h : x.heldOrLapsed = (s.fault.register.get src).heldOrLapsed) :
    s.setSource src x = { s with fault := { s.fault with register := s.fault.register.set src x } } := by
  unfold State.setSource
  dsimp only
  rw [if_neg (by rw [FaultRegister.heldPresent_set h]; simp)]

/-- The clearance of a source other than a path source ends its condition, and a hold that had covered it lapses (R131). -/
theorem State.takeClearance_of_not_path {src : Source} (s : State) (hp : src.isPath = false) :
    s.takeClearance src = { s with fault := { s.fault with
      register := s.fault.register.set src (if (s.fault.register.get src).state = .held then ⟨.lapsed, false, none⟩
        else { s.fault.register.get src with present := false }) } } := by
  have hset {x : SourceRecord} (h : x.heldOrLapsed = (s.fault.register.get src).heldOrLapsed) :=
    State.setSource_of_sameHeld (src := src) (s := s) h
  unfold State.takeClearance
  dsimp only
  split
  · next hx =>
    rw [if_pos hx]
    exact hset (by simp [SourceRecord.heldOrLapsed, hx])
  · next hx =>
    rw [if_neg (by simp [hp]), if_neg (by simp [hx])]
    exact hset rfl
  all_goals
    next hx =>
      rw [if_neg (by simp [hx])]
      exact hset rfl

/-! ## The short comparator -/

/-- The comparator reports nothing while it is disarmed, its condition present or the current within its level. -/
theorem State.judgeShort_of_not {current : Nat} {s : State} (h : s.det.shortArmed = false ∨ s.det.short = true
    ∨ current ≤ shortOnsetLevel (fieldNat s.config.shortCode)) : s.judgeShort current = s := by
  unfold State.judgeShort
  rw [if_neg]
  rintro ⟨harmed, hshort, hlevel⟩
  rcases h with h | h | h
  · simp [harmed] at h
  · simp [hshort] at h
  · omega

/-- The clearance level is half of the onset level, which is even (R117). -/
theorem lt_shortClearanceLevel_iff (code current : Nat) :
    current < shortClearanceLevel code ↔ 2 * current < shortOnsetLevel code := by
  unfold shortClearanceLevel shortOnsetLevel
  (repeat' split) <;> omega

theorem State.judgeShort_det {current : Nat} {s : State} (h1 : s.det.shortArmed = true) (h2 : s.det.short = false)
    (h3 : shortOnsetLevel (fieldNat s.config.shortCode) < current) :
    (s.judgeShort current).det = { s.det with short := true } := by
  unfold State.judgeShort
  rw [if_pos ⟨h1, h2, h3⟩]
  simp

/-- Settles O36. -/
theorem shortComparator : Obligations.ShortComparator := by
  intro current s hrun code level
  have honset : exec (.shortOnset current) s = conclude s (s.judgeShort current) := by
    rw [exec, execShortOnset, inRun_of_run _ _ hrun]
  have hclear : exec (.shortClearance current) s
      = if s.det.short = true ∧ 2 * current < level then
          conclude s (({ s with det := { s.det with short := false } } : State).takeClearance .short)
        else .next s := by
    rw [exec, execShortClearance, inRun_of_run _ _ hrun]
    simp only [lt_shortClearanceLevel_iff]
    rfl
  refine ⟨fun harmed hshort hlevel hc hheld => ?trips, fun h => ?nothing, fun hshort hlevel => ?clears, fun h => ?stays⟩
  case trips =>
    obtain ⟨t, ht, hend⟩ := conclude_end s (s.judgeShort current)
    have htakes := State.judgeShort_takes current s harmed hshort hlevel hc hheld
    obtain ⟨hregister, -⟩ := State.judgeShort_reports current s harmed hshort hlevel hc hheld
    obtain ⟨htripped, -, hlockout, -, hbus, ⟨earlier, r, later, -, hhistory, hr, -⟩, -⟩ := id htakes
    obtain ⟨hcode, -, hscope, -, hbefore, -⟩ := hr
    refine ⟨_, t, r, honset.trans ht, hend, State.judgeShort_det harmed hshort hlevel, htakes, hregister, htripped,
      by simp [hhistory], hcode, hbefore, hscope, fun hrbus => hbus (hscope.symm.trans hrbus), hlockout,
      State.judgeShort_keeps _ _⟩
  case nothing =>
    rw [honset, State.judgeShort_of_not h]
    exact conclude_end s s
  case clears =>
    rw [hclear, if_pos ⟨hshort, hlevel⟩, State.takeClearance_of_not_path _ rfl]
    exact conclude_end _ _
  case stays =>
    rw [hclear, if_neg]
    rintro ⟨hshort, hlevel⟩
    rcases h with h | h
    · simp [hshort] at h
    · omega

/-! ## The end of a self-check -/

theorem CheckItems.passed_eq (failed : CheckItems) :
    decide (failed = .noneFailed) = (!failed.converter && !failed.gates && !failed.store) := by
  obtain ⟨converter, gates, store⟩ := failed
  simp [CheckItems.noneFailed, Bool.and_assoc]

/-- The self-check's outcome taken, before a STATUS of it is handed over (R163). -/
def State.checked (failed : CheckItems) (s : State) : State :=
  let passed := !failed.converter && !failed.gates && !failed.store
  ({ s with
    meas := { s.meas with cycleTimer := some 0 }
    power := { s.power with
      check := if passed then .passed else .failed
      checkTimer := none, checkResult := failed, checkFailed := !passed
      checkFlag := if passed then !s.power.checkFlag else s.power.checkFlag } } : State).setEvent .checkDone

theorem State.endCheck_eq (failed : CheckItems) (s : State) :
    s.endCheck failed
      = if s.power.checkFailed = (!failed.converter && !failed.gates && !failed.store)
            ∨ s.power.commitCheck = true ∧ (!failed.converter && !failed.gates && !failed.store) = false then
          (s.checked failed).handStatus
        else s.checked failed := by
  have hflag (b c : Bool) : (b ^^ c) = if c then !b else b := by cases b <;> cases c <;> rfl
  unfold State.endCheck State.checked
  simp only [CheckItems.passed_eq, hflag, Bool.or_eq_true, decide_eq_true_eq, Bool.and_eq_true, Bool.not_eq_true']

theorem exec_selfCheckEnd (failed : CheckItems) {s : State} (hrun : s.power.phase = .run)
    (hcheck : s.power.check = .running) :
    exec (.selfCheckEnd failed) s
      = conclude s (if s.power.wakeCheck then (s.endCheck failed).endWake else s.endCheck failed) := by
  rw [exec, execSelfCheckEnd, inRun_of_run _ _ hrun, if_pos hcheck]

theorem State.checked_event (failed : CheckItems) (s : State) : (s.checked failed).hasEvent .checkDone = true :=
  State.hasEvent_setEvent_self _ _

/-- Settles O37: `endCheck_eq`, with the STATUS and without. -/
theorem selfCheckEnds : Obligations.SelfCheckEnds := by
  intro failed s hrun hcheck hwake passed
  have hexec := exec_selfCheckEnd failed hrun hcheck
  rw [hwake, if_neg (by simp)] at hexec
  obtain ⟨t, ht, hend⟩ := conclude_end s (s.endCheck failed)
  refine ⟨s.endCheck failed, t, hexec.trans ht, hend, ?_⟩
  rw [State.endCheck_eq]
  split
  · next hhanded =>
    have hfields := State.handStatus_eq (s.checked failed)
    refine ⟨by rw [hfields]; rfl, by rw [hfields]; rfl, State.handStatus_stay _ _ (State.checked_event _ _),
      fun _ => State.handStatus_handed _, fun hsame hpass => ?_, by rw [hfields]; rfl⟩
    rcases hhanded with h | ⟨hcommit, h⟩
    · exact absurd h hsame
    · rcases hpass with hpass | hpass
      · simp [hpass] at hcommit
      · exact absurd (hpass.symm.trans h) (by simp)
  · next hnot => exact ⟨rfl, rfl, State.checked_event _ _, fun h => absurd h hnot, fun _ _ => rfl, rfl⟩

/-! ## The wake sources -/

/-- Settles O39: the rows by the phase in which they come. -/
theorem wakeSources : Obligations.WakeSources := by
  intro s
  have hport {c : Instr} (hc : c = .portWake ∨ c = .transactionBegin)
      (h : s.power.phase = .sleep ∨ s.power.phase = .wakePulse ∨ s.power.phase = .powerUp) :
      exec c s = .next s.selectAsleep := by
    rcases hc with rfl | rfl
    · rw [exec, execPortWake, State.asleep]
      rcases h with h | h | h <;> rw [h] <;> rfl
    · rw [exec, execTransactionBegin, State.select]
      rcases h with h | h | h <;> rw [h]
  refine ⟨fun hsleep => ⟨fun harmed => ?line, fun current harmed hcurrent => ?current, fun c hc => ?port⟩,
    fun hwaking => ⟨fun c hc => ?again, ?lineAgain, fun current => ?currentAgain⟩, fun hrun => ?run, fun hreset => ?reset⟩
  case line =>
    refine ⟨_, ?_, rfl, rfl⟩
    rw [exec, execWakeLine, if_pos ⟨hsleep, harmed⟩]
    rfl
  case current =>
    refine ⟨_, ?_, rfl, rfl⟩
    rw [exec, execCurrentWake, if_pos ⟨hsleep, harmed, hcurrent⟩]
    rfl
  case port =>
    refine ⟨_, (hport hc (.inl hsleep)).trans ?_, rfl, rfl⟩
    rw [State.selectAsleep]
    dsimp only
    rw [if_pos hsleep]
    rfl
  case again =>
    rw [hport hc (.inr hwaking), State.selectAsleep]
    dsimp only
    rw [if_neg (by rcases hwaking with h | h <;> simp [h])]
  case lineAgain =>
    rw [exec, execWakeLine, if_neg]
    rcases hwaking with h | h <;> simp [h]
  case currentAgain =>
    rw [exec, execCurrentWake, if_neg]
    rcases hwaking with h | h <;> simp [h]
  case run => rw [exec, execTransactionBegin, State.select, hrun]
  case reset =>
    rw [exec, execTransactionBegin, State.select]
    rcases hreset with h | h | h | h <;> rw [h]

end Sys2Proof.Machine
end

section
/-! PROOF. The restarted flag (R93), the pending STATUS and the fault register across trips and onsets: the facts that the
wake sequence and the start-up after a reset need. -/

namespace Sys2Proof.Machine

/-! ## The restarted flag across a trip (R93) -/

theorem State.changeConn_restarted (new : ConnState) (path : Path) (s : State) :
    (s.changeConn new path).conn.restarted
      = if s.conn.state = new then s.conn.restarted
        else s.conn.restarted && (decide (new = .detached) || decide (new = .isolated)) := by
  unfold State.changeConn
  split <;> simp

/-- A trip leaves the restarted flag clear, unless it finds it set in TRIPPED or LOCKOUT. -/
theorem State.tripCore_restarted (d : TripCause) {s : State}
    (h : s.conn.restarted = false ∨ s.conn.state ≠ .tripped ∧ s.conn.state ≠ .lockout) :
    (s.tripCore d).conn.restarted = false := by
  have hchange (u : State) (hu : u.conn.restarted = false ∨ u.conn.state ≠ .tripped ∧ u.conn.state ≠ .lockout)
      (new : ConnState) (hn : new = .tripped ∨ new = .lockout) :
      ((u.changeConn new .none).setEvent .tripTaken).conn.restarted = false := by
    have hleft : new ≠ .detached ∧ new ≠ .isolated := by rcases hn with rfl | rfl <;> decide
    change (u.changeConn new .none).conn.restarted = false
    rw [State.changeConn_restarted]
    split
    · next hsame =>
      rcases hu with hu | ⟨h1, h2⟩
      · exact hu
      · rcases hn with hn | hn
        · exact absurd (hsame.trans hn) h1
        · exact absurd (hsame.trans hn) h2
    · simp [hleft]
  unfold State.tripCore
  dsimp only
  split <;> exact hchange _ (by simpa using h) _ (by split <;> simp)

theorem State.postponedOverCurrent_restarted (src : Source) {s : State} (h : s.conn.restarted = false) :
    (s.postponedOverCurrent src).conn.restarted = false := by
  unfold State.postponedOverCurrent
  dsimp only
  split
  · exact State.tripCore_restarted _ (.inl (by simpa using h))
  · exact h

theorem State.liftClosingHold_restarted {s : State} (h : s.conn.restarted = false) :
    s.liftClosingHold.conn.restarted = false := by
  unfold State.liftClosingHold
  split
  · exact State.postponedOverCurrent_restarted _ (State.postponedOverCurrent_restarted _ h)
  · exact h

theorem State.takeTrip_restarted (d : TripCause) {s : State}
    (h : s.conn.restarted = false ∨ s.conn.state ≠ .tripped ∧ s.conn.state ≠ .lockout) :
    (s.takeTrip d).conn.restarted = false := by
  unfold State.takeTrip
  split
  · exact State.liftClosingHold_restarted (State.tripCore_restarted d h)
  · exact State.tripCore_restarted d h

/-- So does a SHORT that trips. -/
theorem State.judgeShort_restarted {current : Nat} {s : State} (harmed : s.det.shortArmed = true)
    (hshort : s.det.short = false) (hlevel : shortOnsetLevel (fieldNat s.config.shortCode) < current)
    (hc : s.committed = true) (hheld : s.fault.register.short.state ≠ .held)
    (h : s.conn.restarted = false ∨ s.conn.state ≠ .tripped ∧ s.conn.state ≠ .lockout) :
    (s.judgeShort current).conn.restarted = false := by
  have hacts : ({ s with det := { s.det with short := true } } : State).actsOn .short = true :=
    State.actsOn_of_committed _ hc
  have hfree : ({ s with det := { s.det with short := true } } : State).isHeld .short = false := rfl
  unfold State.judgeShort
  rw [if_pos ⟨harmed, hshort, hlevel⟩]
  cases hx : s.fault.register.short.state with
  | clear =>
    rw [State.takeOnset_armed _ _ hacts (.inl hx) hfree]
    exact State.takeTrip_restarted _ (by simpa using h)
  | lapsed =>
    rw [State.takeOnset_armed _ _ hacts (.inr hx) hfree]
    exact State.takeTrip_restarted _ (by simpa using h)
  | active =>
    rw [State.takeOnset_again _ _ hacts hx rfl]
    exact State.takeTrip_restarted _ (by simpa using h)
  | held => exact absurd hx hheld

/-! ## The fault register outside CLOSING -/

theorem State.takeAction_register_outside (src : Source) (value : Half) (reported : Scope) {s : State}
    (h : s.conn.state ≠ .closing) : (s.takeAction src value reported).fault.register = s.fault.register := by
  have htrip (d : TripCause) : (s.takeTrip d).fault.register = s.fault.register := by
    rw [State.takeTrip, if_neg h, State.tripCore_register]
  have hfollow : s.followPathSources.fault.register = s.fault.register := by simp
  unfold State.takeAction
  cases src with
  | modOv | modUv =>
    dsimp only
    split
    · exact htrip _
    · exact hfollow
  | short | tempTrip | busOv | dupId | ocDsg | ocChg | busSilent | rxDegraded => exact htrip _

/-- Outside CLOSING an onset writes the record of its source alone. -/
theorem State.takeOnset_register_outside (src : Source) (value : Half) (reported : Scope) {s : State}
    (h : s.conn.state ≠ .closing) :
    ∃ x, (s.takeOnset src value reported).fault.register = s.fault.register.set src x := by
  have hset (x : SourceRecord) : ∃ y, (s.setSource src x).fault.register = s.fault.register.set src y :=
    ⟨x, State.setSource_register _ _ _⟩
  by_cases ha : s.actsOn src = true
  · cases hx : (s.fault.register.get src).state with
    | clear | lapsed =>
      cases hheld : s.isHeld src
      · rw [State.takeOnset_armed value reported ha (by simp [hx]) hheld,
          State.takeAction_register_outside _ _ _ (by simpa using h), State.cancelSleep_register]
        exact hset _
      · rw [State.takeOnset_covered value reported ha (by simp [hx]) hheld]
        exact hset _
    | active =>
      by_cases ht : src.isTrip = true
      · rw [State.takeOnset_again value reported ha hx ht, State.takeAction_register_outside _ _ _ (by simpa using h)]
        exact hset _
      · rw [State.takeOnset_noted value reported (.inr ⟨hx, by simpa using ht⟩)]
        exact hset _
    | held =>
      rw [State.takeOnset_noted value reported (.inl hx)]
      exact hset _
  · rw [State.takeOnset_of_not_acting value reported (by simpa using ha)]
    exact hset _

/-- Outside CLOSING the comparator's report writes the record of SHORT alone. -/
theorem State.judgeShort_register_outside {current : Nat} {s : State} (harmed : s.det.shortArmed = true)
    (hshort : s.det.short = false) (hlevel : shortOnsetLevel (fieldNat s.config.shortCode) < current)
    (hc : s.committed = true) (hheld : s.fault.register.short.state ≠ .held) (h : s.conn.state ≠ .closing) :
    (s.judgeShort current).fault.register
      = { s.fault.register with short := ⟨.active, true, some ((s.meas.sample.map (·.vbus)).getD 0)⟩ } := by
  obtain ⟨hrecord, -⟩ := State.judgeShort_reports current s harmed hshort hlevel hc hheld
  unfold State.judgeShort at hrecord ⊢
  rw [if_pos ⟨harmed, hshort, hlevel⟩] at hrecord ⊢
  obtain ⟨x, hx⟩ := State.takeOnset_register_outside .short s.shortValue s.shortScope
    (s := { s with det := { s.det with short := true } }) h
  rw [hx] at hrecord ⊢
  change x = _ at hrecord
  rw [hrecord]
  rfl

/-! ## The source's record after an onset, and LOCKOUT -/

/-- After an onset the source's condition is present, however it is taken (R130). -/
theorem State.takeOnset_present (src : Source) (value : Half) (reported : Scope) (s : State) :
    ((s.takeOnset src value reported).fault.register.get src).present = true := by
  have hset (x : SourceRecord) (hx : x.present = true) : ((s.setSource src x).fault.register.get src).present = true := by
    rw [State.setSource_register, FaultRegister.get_set_self, hx]
  by_cases ha : s.actsOn src = true
  · cases hx : (s.fault.register.get src).state with
    | clear | lapsed =>
      cases hheld : s.isHeld src
      · rw [State.takeOnset_register_armed src value reported s ha (.inl ⟨by simp [hx], hheld⟩)]
      · rw [State.takeOnset_covered value reported ha (by simp [hx]) hheld]
        exact hset _ rfl
    | active =>
      by_cases ht : src.isTrip = true
      · rw [State.takeOnset_register_armed src value reported s ha (.inr ⟨hx, ht⟩)]
      · rw [State.takeOnset_noted value reported (.inr ⟨hx, by simpa using ht⟩)]
        exact hset _ rfl
    | held =>
      rw [State.takeOnset_noted value reported (.inl hx)]
      exact hset _ rfl
  · rw [State.takeOnset_of_not_acting value reported (by simpa using ha)]
    exact hset _ rfl

theorem State.takeTrip_lockout (d : TripCause) {s : State} (h : s.conn.state = .lockout) :
    (s.takeTrip d).conn.state = .lockout := by
  rw [State.takeTrip, if_neg (by simp [h]), State.tripCore_state]
  simp [h]

theorem State.takeAction_lockout (src : Source) (value : Half) (reported : Scope) {s : State}
    (h : s.conn.state = .lockout) : (s.takeAction src value reported).conn.state = .lockout := by
  have hfollow : s.followPathSources.conn.state = .lockout := by simpa using h
  unfold State.takeAction
  cases src with
  | modOv | modUv =>
    dsimp only
    split
    · exact State.takeTrip_lockout _ h
    · exact hfollow
  | short | tempTrip | busOv | dupId | ocDsg | ocChg | busSilent | rxDegraded => exact State.takeTrip_lockout _ h

/-- No onset leads out of LOCKOUT (R141). -/
theorem State.takeOnset_lockout (src : Source) (value : Half) (reported : Scope) {s : State}
    (h : s.conn.state = .lockout) : (s.takeOnset src value reported).conn.state = .lockout := by
  have hset (x : SourceRecord) : (s.setSource src x).conn.state = .lockout := by simpa using h
  by_cases ha : s.actsOn src = true
  · cases hx : (s.fault.register.get src).state with
    | clear | lapsed =>
      cases hheld : s.isHeld src
      · rw [State.takeOnset_armed value reported ha (by simp [hx]) hheld]
        exact State.takeAction_lockout _ _ _ (by simpa using h)
      · rw [State.takeOnset_covered value reported ha (by simp [hx]) hheld]
        exact hset _
    | active =>
      by_cases ht : src.isTrip = true
      · rw [State.takeOnset_again value reported ha hx ht]
        exact State.takeAction_lockout _ _ _ (hset _)
      · rw [State.takeOnset_noted value reported (.inr ⟨hx, by simpa using ht⟩)]
        exact hset _
    | held =>
      rw [State.takeOnset_noted value reported (.inl hx)]
      exact hset _
  · rw [State.takeOnset_of_not_acting value reported (by simpa using ha)]
    exact hset _

/-! ## A STATUS that is pending stays pending -/

/-- A STATUS pending in `s` is pending in `u`. -/
def State.StatusStays (s u : State) : Prop := hasKind .status s.mbi.list = true → hasKind .status u.mbi.list = true

theorem State.StatusStays.trans {s u w : State} (h1 : s.StatusStays u) (h2 : u.StatusStays w) : s.StatusStays w :=
  fun h => h2 (h1 h)

theorem State.StatusStays.of_list {s u : State} (h : u.mbi.list = s.mbi.list) : s.StatusStays u := fun hs => by
  rwa [h]

theorem Mbi.join_hasKind (k : FrameKind) (f : Frame) (m : Mbi) (h : hasKind k m.list = true) :
    hasKind k (m.join f).list = true := by
  simp [Mbi.join, h]

theorem State.queueFrame_statusStays (f : Frame) (s : State) : s.StatusStays (s.queueFrame f) := by
  intro hs
  unfold State.queueFrame
  split
  · exact hs
  · cases f with
    | status p =>
      simp only [Mbi.handStatus, Mbi.putStatus, hs, if_true]
      split <;> simpa using hs
    | trip p =>
      simp only [Mbi.handTrip, Mbi.putTrip]
      split
      · exact hs
      · split
        · simpa using hs
        · exact Mbi.join_hasKind _ _ _ hs
    | object p | assent p =>
      dsimp only
      split
      · exact hs
      · exact Mbi.join_hasKind _ _ _ hs
    | claim p | closed p | abandon p | release => exact Mbi.join_hasKind _ _ _ hs

theorem State.handStatus_statusStays (s : State) : s.StatusStays s.handStatus := State.queueFrame_statusStays _ s

theorem hasKind_removeKind_of_ne {k removed : FrameKind} {l : List TxFrame} (hk : k ≠ removed)
    (h : hasKind k l = true) : hasKind k (removeKind removed l) = true := by
  induction l with
  | nil => exact h
  | cons g gs ih =>
    rw [hasKind_iff] at h
    obtain ⟨f, hf, hfk⟩ := h
    unfold removeKind
    split
    · next hg =>
      rcases List.mem_cons.1 hf with rfl | hf
      · exact absurd (hfk.symm.trans hg) hk
      · exact (hasKind_iff _ _).2 ⟨f, hf, hfk⟩
    · rcases List.mem_cons.1 hf with rfl | hf
      · exact (hasKind_iff _ _).2 ⟨f, by simp, hfk⟩
      · obtain ⟨g', hg', hgk⟩ := (hasKind_iff _ _).1 (ih ((hasKind_iff _ _).2 ⟨f, hf, hfk⟩))
        exact (hasKind_iff _ _).2 ⟨g', by simp [hg'], hgk⟩

theorem State.abortClaim_statusStays (o : ClaimOutcome) (s : State) : s.StatusStays (s.abortClaim o) := by
  unfold State.abortClaim
  split
  · exact .of_list rfl
  · split
    · unfold State.withdrawClaim
      split
      · exact .of_list rfl
      · exact fun hs => hasKind_removeKind_of_ne (by decide) hs
    · exact .of_list rfl

theorem State.changeConn_statusStays (new : ConnState) (path : Path) (s : State) :
    s.StatusStays (s.changeConn new path) := by
  unfold State.changeConn
  split
  · exact .of_list rfl
  · exact fun hs => State.handStatus_statusStays _ hs

theorem State.tripCore_statusStays (d : TripCause) (s : State) : s.StatusStays (s.tripCore d) := by
  have hrecord : s.StatusStays (s.openSwitches.recordTrip d s.conn.state) := .of_list rfl
  have hchange (u : State) (new : ConnState) :
      u.StatusStays (((u.abortClaim .tripped).changeConn new .none).setEvent .tripTaken) :=
    ((State.abortClaim_statusStays _ u).trans (State.changeConn_statusStays _ _ _)).trans (.of_list rfl)
  have hbus (u : State) : u.StatusStays u.takeBusTrip := .of_list rfl
  unfold State.tripCore
  dsimp only
  split
  · exact ((hrecord.trans (State.queueFrame_statusStays _ _)).trans (hchange _ _)).trans (hbus _)
  · exact (hrecord.trans (State.queueFrame_statusStays _ _)).trans (hchange _ _)

theorem State.setSource_statusStays (src : Source) (x : SourceRecord) (s : State) : s.StatusStays (s.setSource src x) := by
  unfold State.setSource
  dsimp only
  split
  · exact fun hs => State.handStatus_statusStays _ hs
  · exact .of_list rfl

theorem State.cancelSleep_statusStays (s : State) : s.StatusStays s.cancelSleep := by
  unfold State.cancelSleep
  split
  · exact fun hs => State.handStatus_statusStays _ hs
  · exact .of_list rfl

theorem State.postponedOverCurrent_statusStays (src : Source) (s : State) :
    s.StatusStays (s.postponedOverCurrent src) := by
  unfold State.postponedOverCurrent
  dsimp only
  split
  · exact ((State.setSource_statusStays _ _ s).trans (State.cancelSleep_statusStays _)).trans
      (State.tripCore_statusStays _ _)
  · exact .of_list rfl

theorem State.liftClosingHold_statusStays (s : State) : s.StatusStays s.liftClosingHold := by
  have hlifted : s.StatusStays { s with fault := { s.fault with closingHold := false } } := .of_list rfl
  unfold State.liftClosingHold
  split
  · exact (hlifted.trans (State.postponedOverCurrent_statusStays _ _)).trans (State.postponedOverCurrent_statusStays _ _)
  · exact .of_list rfl

theorem State.takeTrip_statusStays (d : TripCause) (s : State) : s.StatusStays (s.takeTrip d) := by
  unfold State.takeTrip
  split
  · exact (State.tripCore_statusStays d s).trans (State.liftClosingHold_statusStays _)
  · exact State.tripCore_statusStays d s

/-- A STATUS pending stays pending while the comparator's SHORT trips the station. -/
theorem State.judgeShort_statusStays {current : Nat} {s : State} (hheld : s.fault.register.short.state ≠ .held)
    (hc : s.committed = true) : s.StatusStays (s.judgeShort current) := by
  have hacts : ({ s with det := { s.det with short := true } } : State).actsOn .short = true :=
    State.actsOn_of_committed _ hc
  have hfree : ({ s with det := { s.det with short := true } } : State).isHeld .short = false := rfl
  have hset (x : SourceRecord) : s.StatusStays (({ s with det := { s.det with short := true } } : State).setSource .short x) :=
    fun hs => State.setSource_statusStays .short x { s with det := { s.det with short := true } } hs
  unfold State.judgeShort
  split
  · cases hx : s.fault.register.short.state with
    | clear =>
      rw [State.takeOnset_armed _ _ hacts (.inl hx) hfree]
      exact ((hset _).trans (State.cancelSleep_statusStays _)).trans (State.takeTrip_statusStays _ _)
    | lapsed =>
      rw [State.takeOnset_armed _ _ hacts (.inr hx) hfree]
      exact ((hset _).trans (State.cancelSleep_statusStays _)).trans (State.takeTrip_statusStays _ _)
    | active =>
      rw [State.takeOnset_again _ _ hacts hx rfl]
      exact (hset _).trans (State.takeTrip_statusStays _ _)
    | held => exact absurd hx hheld
  · exact .of_list rfl

end Sys2Proof.Machine
end

section
/-! PROOF. The wake sequence (R119, R158 to R160, R163) and the start-up that ends a reset (R174, R175). -/

namespace Sys2Proof.Machine

/-! ## The arming of the comparator -/

/-- The comparator has nothing to report at its arming: not committed, or the current within the level (R119). -/
theorem State.judgeShort_at_arming {current : Nat} {s : State} (harmed : s.det.shortArmed = s.committed)
    (h : s.committed = true → current ≤ shortOnsetLevel (fieldNat s.config.shortCode)) : s.judgeShort current = s := by
  cases hc : s.committed with
  | false => exact State.judgeShort_of_not (.inl (harmed.trans hc))
  | true => exact State.judgeShort_of_not (.inr (.inr (h hc)))

theorem Changes.keepsPath {s u : State} (h : Changes s u) (hs : s.PathSafe) : u.PathSafe := by
  induction h with
  | refl => exact hs
  | tail _ hchange ih => exact hchange.keepsPath ih

/-- A station that has tripped has left CONNECTED, and its path is NONE. -/
theorem State.HasTripped.path {s u : State} (h : u.HasTripped) (hchanges : Changes s u) (hs : s.PathSafe) :
    u.conn.path = .none := by
  refine hchanges.keepsPath hs ?_
  rcases h.1 with h | h <;> simp [h]

/-! ## The wake sequence -/

theorem exec_mainDomainReady (current : Nat) {s : State} (h : s.power.phase = .powerUp) :
    exec (.mainDomainReady current) s = conclude s (s.wakeMainDomain.judgeShort current) := by
  rw [exec, execMainDomainReady, if_pos h]

/-- The state in which the wake sequence ends, before the STATUS of its end is handed over (R160). -/
def State.awake (failed : CheckItems) (s : State) : State :=
  { s.checked failed with
    mbi := { s.mbi with bus := if s.committed then .active else .listen, line := .unsynced }
    closure := { s.closure with holdOff := some (100 + 20 * s.ownId.toNat) }
    conn := { s.conn with
      statusTimer := if s.committed then some (statusPeriodMs (fieldNat s.config.statusPeriod)) else s.conn.statusTimer
      restarted := decide (s.conn.state = .detached ∨ s.conn.state = .isolated) }
    power := { (s.checked failed).power with wakeCheck := false } }

theorem State.endWake_eq (failed : CheckItems) {s : State} (hoff : s.mbi.bus = .off)
    (hmark : s.mbi.permanentSilence = false) : (s.endCheck failed).endWake = (s.awake failed).handStatus := by
  have hchecked : s.endCheck failed = s.checked failed := by
    rw [State.endCheck_eq, State.handStatus_of_not_active (s.checked failed) (by simp [State.checked, hoff]), ite_self]
  have hbus : (s.checked failed).releasedBus = if s.committed then .active else .listen := by
    simp [State.releasedBus, State.checked, hmark]
  rw [hchecked, State.endWake, State.releaseMbi, hbus]
  unfold State.awake State.startHoldOff State.startStatusTimer
  by_cases hc : s.committed = true
  · simp [State.checked, State.setEvent, hc, holdOffMs]
  · simp [State.checked, State.setEvent, hc, holdOffMs]

/-- Settles O40: the main domain's wake values, the SHORT at the arming, and `awake` at the end of the check. -/
theorem wakeSequence : Obligations.WakeSequence := by
  intro s
  refine ⟨fun hpulse => ?pulse, fun current hup hoff hlevel => ?ready, fun current hup hoff hc hlevel hheld => ?short,
    fun failed hrun hcheck hwake hoff hmark htx => ?ends⟩
  case pulse => rw [exec, execWakePulseEnd, if_pos hpulse]
  case ready =>
    have hquiet : s.wakeMainDomain.judgeShort current = s.wakeMainDomain := State.judgeShort_at_arming rfl hlevel
    have hoffer : s.wakeMainDomain.offer = s.wakeMainDomain := by simp [State.offer, State.wakeMainDomain, hoff]
    refine ⟨s.wakeMainDomain, ?_, rfl, rfl, rfl, rfl, rfl, rfl, rfl, rfl, rfl, rfl, rfl, rfl, rfl, rfl, rfl, rfl, rfl,
      rfl, rfl, rfl, rfl, rfl⟩
    rw [exec_mainDomainReady _ hup, hquiet, conclude_of_running_check _ _ rfl, hoffer]
  case short =>
    intro ready
    obtain ⟨t, ht, hend⟩ := conclude_end s (s.wakeMainDomain.judgeShort current)
    have hbus : s.wakeMainDomain.mbi.bus ≠ .active := by
      change s.mbi.bus ≠ .active
      simp [hoff]
    have hopen : s.wakeMainDomain.conn.state ≠ .closing := by
      change s.wakeConn ≠ .closing
      unfold State.wakeConn
      split <;> decide
    have htakes : s.wakeMainDomain.TakesTrip s.shortCause (s.wakeMainDomain.judgeShort current) :=
      State.judgeShort_takes current s.wakeMainDomain hc rfl hlevel hc hheld
    have hpath : (s.wakeMainDomain.judgeShort current).conn.path = .none :=
      State.HasTripped.path htakes.1 (State.judgeShort_changes current _) fun _ => rfl
    have hmbi (hclaim : s.closure.claim = none) := (State.judgeShort_keepsMbi current hbus hclaim hopen).1
    refine ⟨_, t, (exec_mainDomainReady _ hup).trans ht, hend,
      htakes.of_same rfl rfl rfl rfl rfl (fun hb => absurd hb hbus) (fun _ h => h) rfl,
      State.judgeShort_register_outside hc rfl hlevel hc hheld hopen, ?_, ?_, ?_, ?_, ?_, ?_, ?_,
      State.judgeShort_restarted hc rfl hlevel hc hheld (.inl rfl), ?armed,
      (State.judgeShort_reports current s.wakeMainDomain hc rfl hlevel hc hheld).2, ?_, hpath, ?off, hmbi, ?_, ?_, ?_, ?_, ?_,
      ?_⟩
    all_goals simp only [State.judgeShort_frame]
    case armed => exact hc
    case off => exact hoff
    all_goals rfl
  case ends =>
    intro passed
    have hexec := exec_selfCheckEnd failed hrun hcheck
    rw [hwake, if_pos rfl, State.endWake_eq failed hoff hmark] at hexec
    obtain ⟨t, ht, hend⟩ := conclude_end s (s.awake failed).handStatus
    have hfields := State.handStatus_eq (s.awake failed)
    refine ⟨_, t, hexec.trans ht, hend, ?_⟩
    refine ⟨by rw [hfields]; rfl, by rw [hfields]; rfl, by rw [hfields]; rfl, by rw [hfields]; rfl, by rw [hfields]; rfl,
      by rw [hfields]; rfl, by rw [hfields]; rfl, State.handStatus_handed _, by rw [hfields]; rfl,
      State.handStatus_stay _ _ (State.checked_event failed s), by rw [hfields]; rfl, by rw [hfields]; rfl,
      by rw [hfields]; rfl⟩

end Sys2Proof.Machine
end

section
/-! PROOF. The start-up that ends a pin reset or a service reset (R119, R150, R174, R175), with the onsets that may fall
within it. -/

namespace Sys2Proof.Machine

/-! ## The start-up in its two parts -/

/-- The part in RUN at the end of a reset, before the start-up, with the own id as read. -/
def State.running (id : StationId) (s : State) : State :=
  { s with ownId := id, power := { s.power with phase := .run } }

theorem exec_resetEnd {c : Instr} {id : StationId} {current : Nat} {s : State}
    (h : c = .pinResetEnd id current ∧ s.power.phase = .pinReset
      ∨ c = .serviceResetEnd current ∧ s.power.phase = .serviceReset ∧ id = s.ownId) :
    exec c s = conclude s ((s.running id).startUp.judgeShort current) := by
  rcases h with ⟨rfl, hphase⟩ | ⟨rfl, hphase, rfl⟩
  · rw [exec, execPinResetEnd, if_pos hphase]
    rfl
  · rw [exec, execServiceResetEnd, if_pos hphase]
    rfl

/-- The start-up after the release of the MBI, up to its STATUS (R174). -/
def State.startedUp (s : State) : State :=
  { s with
    closure := { s.closure with holdOff := some (100 + 20 * s.ownId.toNat) }
    conn := { s.conn with
      statusTimer := if s.committed then some (statusPeriodMs (fieldNat s.config.statusPeriod)) else s.conn.statusTimer
      restarted := decide (s.conn.state ≠ .lockout) }
    meas := { s.meas with cycleTimer := some 0 }
    det := { s.det with shortArmed := s.committed, short := false } }

/-- The state in which the MBI's onset of BUS_SILENT has been taken in the start-up (R150, R174). -/
def State.silentOnset (s : State) : State := s.releaseMbi.takeOnset .busSilent s.tecValue .localOnly

theorem State.startUp_eq (s : State) :
    s.startUp
      = (if s.releasedBus = .silent then s.silentOnset else s.releaseMbi).startedUp.handStatus.startSelfCheck := by
  have hrest (u : State) : ({ (({ u with meas := { u.meas with cycleTimer := some 0 } } :
        State).armShort.startHoldOff.startStatusTimer) with
      conn := { (({ u with meas := { u.meas with cycleTimer := some 0 } } :
        State).armShort.startHoldOff.startStatusTimer).conn with
          restarted := decide ((({ u with meas := { u.meas with cycleTimer := some 0 } } :
            State).armShort.startHoldOff.startStatusTimer).conn.state ≠ ConnState.lockout) } } : State) = u.startedUp := by
    unfold State.startStatusTimer State.startedUp
    by_cases hc : u.committed = true <;> simp [State.armShort, State.startHoldOff, hc, holdOffMs]
  unfold State.startUp
  dsimp only
  rw [hrest]
  rfl

/-- What the second part of the start-up leaves, but for the list and the STATUS that it hands over. -/
theorem State.startedUp_end (s : State) :
    s.startedUp.handStatus.startSelfCheck = { s with
      mbi := { s.mbi with
        list := s.startedUp.handStatus.mbi.list, heldStatus := s.startedUp.handStatus.mbi.heldStatus }
      closure := s.startedUp.closure
      conn := s.startedUp.conn
      meas := { s.meas with cycleTimer := none }
      det := s.startedUp.det
      power := { s.power with check := .running, checkTimer := some 10, checkResult := .noneFailed, commitCheck := false } } := by
  conv_lhs => rw [State.handStatus_eq]
  rfl

/-- With the mark clear the MBI is released to ACTIVE or LISTEN (R19, R174). -/
theorem State.startUp_of_unmarked {s : State} (h : s.mbi.permanentSilence = false) :
    s.startUp = s.releaseMbi.startedUp.handStatus.startSelfCheck := by
  rw [State.startUp_eq, if_neg]
  simp only [State.releasedBus, h, Bool.false_eq_true, if_false]
  split <;> decide

/-- With the mark set it is released to SILENT, where no STATUS is queued (R15, R19). -/
theorem State.startUp_of_marked {s : State} (h : s.mbi.permanentSilence = true) :
    s.startUp = s.silentOnset.startedUp.startSelfCheck := by
  have hsilent : s.releasedBus = .silent := by simp [State.releasedBus, h]
  have hbus : s.silentOnset.startedUp.mbi.bus ≠ .active := by
    simp [State.startedUp, State.silentOnset, State.releaseMbi, hsilent]
  rw [State.startUp_eq, if_pos hsilent, State.handStatus_of_not_active _ hbus]

/-! ## What a trip looks at, across the start-up -/

theorem State.shortCause_congr {s u : State} (hmeas : u.meas.sample = s.meas.sample) (hconfig : u.config = s.config) :
    u.shortCause = s.shortCause := by
  unfold State.shortCause
  rw [hmeas, hconfig]

theorem State.WaitsForClosingHold.of_fault {oc : Source} {s u : State} (h : u.WaitsForClosingHold oc)
    (hfault : u.fault = s.fault) : s.WaitsForClosingHold oc := by
  unfold State.WaitsForClosingHold at h ⊢
  rwa [hfault] at h

/-- A STATUS handed over with nothing on the line is pending. -/
theorem State.handStatus_hasStatus {s : State} (hbus : s.mbi.bus = .active) (htx : s.mbi.tx = .none) :
    hasKind .status s.handStatus.mbi.list = true := by
  rcases State.handStatus_handed s (by simpa using hbus) with ⟨n, hn⟩ | ⟨hline, -⟩
  · exact (hasKind_iff _ _).2 ⟨_, hn, rfl⟩
  · simp [Mbi.onLine, htx] at hline

/-- While the self-check runs and the line is not idle the reset ends in the start-up itself. -/
theorem exec_resetEnd_quiet {c : Instr} {id : StationId} {current : Nat} {s : State}
    (hreset : c = .pinResetEnd id current ∧ s.power.phase = .pinReset
      ∨ c = .serviceResetEnd current ∧ s.power.phase = .serviceReset ∧ id = s.ownId)
    (hquiet : (s.running id).startUp.judgeShort current = (s.running id).startUp)
    (hcheck : (s.running id).startUp.power.check = .running) (hline : (s.running id).startUp.mbi.line = .unsynced) :
    exec c s = .next (s.running id).startUp := by
  rw [exec_resetEnd hreset, hquiet, conclude_of_running_check _ _ hcheck, State.offer_of_not_idle _ (by simp [hline])]

/-! ## What the onset of BUS_SILENT leaves within the start-up -/

/-- The fields of the start-up in SILENT, by what the onset has left. -/
theorem State.startUp_marked_fields {s : State} (h : s.mbi.permanentSilence = true) :
    s.startUp.ownId = s.ownId ∧ s.startUp.power.check = .running ∧ s.startUp.power.checkTimer = some 10
      ∧ s.startUp.power.commitCheck = false ∧ s.startUp.power.phase = s.power.phase
      ∧ s.startUp.mbi.bus = .silent ∧ s.startUp.mbi.permanentSilence = true ∧ s.startUp.mbi.line = .unsynced
      ∧ s.startUp.mbi.silenceTimer = s.mbi.silenceTimer ∧ s.startUp.mbi.goodCount = s.mbi.goodCount
      ∧ s.startUp.closure.holdOff = some (100 + 20 * s.ownId.toNat)
      ∧ s.startUp.conn.statusTimer
          = (if s.committed then some (statusPeriodMs (fieldNat s.config.statusPeriod)) else s.conn.statusTimer)
      ∧ s.startUp.det.shortArmed = s.committed ∧ s.startUp.det.short = false ∧ s.startUp.meas.cycleTimer = none
      ∧ s.startUp.meas.sample = s.meas.sample
      ∧ s.startUp.charge = s.charge ∧ s.startUp.config = s.config ∧ s.startUp.committed = s.committed
      ∧ s.startUp.roster = s.roster := by
  have hsilent : s.releasedBus = .silent := by simp [State.releasedBus, h]
  rw [State.startUp_of_marked h]
  simp [State.startSelfCheck, State.startedUp, State.silentOnset, State.releaseMbi, hsilent, selfCheckMs, h]

theorem State.startUp_marked_fault {s : State} (h : s.mbi.permanentSilence = true) :
    s.startUp.fault = s.silentOnset.fault := by rw [State.startUp_of_marked h]; rfl

/-- In LOCKOUT the restarted flag stays clear (R93, R141). -/
theorem State.startUp_marked_lockout {s : State} (h : s.mbi.permanentSilence = true) (hlock : s.conn.state = .lockout) :
    s.startUp.conn.restarted = false := by
  have hstate : s.silentOnset.conn.state = .lockout := State.takeOnset_lockout _ _ _ hlock
  rw [State.startUp_of_marked h]
  simp [State.startSelfCheck, State.startedUp, hstate]

/-- Before the commit the onset is only noted (R129). -/
theorem State.startUp_marked_uncommitted {s : State} (h : s.mbi.permanentSilence = true) (hc : s.committed = false) :
    s.startUp.conn.state = s.conn.state ∧ s.startUp.switches = s.switches
      ∧ s.startUp.fault = { s.fault with register := { s.fault.register with
          busSilent := { s.fault.register.busSilent with present := true } } } := by
  have hnoted : s.silentOnset = s.releaseMbi.setSource .busSilent { s.fault.register.busSilent with present := true } :=
    State.takeOnset_of_not_acting _ _ (by simp [State.actsOn, State.releaseMbi, hc])
  have hwritten := State.setSource_of_sameHeld (src := .busSilent)
    (x := { s.fault.register.busSilent with present := true }) (s := s.releaseMbi) rfl
  rw [State.startUp_of_marked h, hnoted, hwritten]
  exact ⟨rfl, rfl, rfl⟩

/-- From the commit onward, with the source CLEAR and no hold on it, the onset trips the station (R150). -/
theorem State.startUp_marked_trips {s : State} (h : s.mbi.permanentSilence = true) (hc : s.committed = true)
    (hclear : s.fault.register.busSilent.state = .clear) (hport : s.fault.portHolds.getLsbD 8 = false) :
    ({ s with mbi := { s.mbi with bus := .silent } } : State).TakesTrip
        (Source.busSilent.cause (BitVec.ofNat 16 s.mbi.tec) .localOnly) s.startUp
      ∧ s.startUp.fault.register.busSilent = ⟨.active, true, some (BitVec.ofNat 16 s.mbi.tec)⟩ := by
  have hacts : s.releaseMbi.actsOn .busSilent = true := State.actsOn_of_committed _ hc
  have hfree : s.releaseMbi.isHeld .busSilent = false := by
    have hbit : s.fault.portHolds.getLsbD (Source.busSilent.code - 1) = false := hport
    rw [State.isHeld, show s.releaseMbi.fault = s.fault from rfl, hbit]
    simp [Source.isOverCurrent]
  have harmed : (s.releaseMbi.fault.register.get .busSilent).state = .clear := hclear
  have htakes : s.releaseMbi.TakesTrip (Source.busSilent.cause (BitVec.ofNat 16 s.mbi.tec) .localOnly) s.silentOnset :=
    State.takeOnset_takes .busSilent s.tecValue .localOnly s.releaseMbi rfl ⟨hacts, .inl ⟨.inl harmed, hfree⟩⟩
  constructor
  · rw [State.startUp_of_marked h]
    exact State.TakesTrip.later (htakes.of_same rfl rfl rfl rfl rfl nofun (fun _ hw => hw) rfl) rfl rfl rfl rfl rfl rfl rfl
      rfl rfl rfl (fun _ _ hp => hp)
  · rw [State.startUp_marked_fault h]
    exact State.takeOnset_register_armed .busSilent s.tecValue .localOnly s.releaseMbi hacts (.inl ⟨.inl harmed, hfree⟩)

/-- Settles O11: the start-up with the mark clear and set, each without and with the comparator's SHORT. -/
theorem resetStartUp : Obligations.ResetStartUp := by
  refine ⟨fun c id current s hreset hmark hlevel => ?unmarked, fun current s hphase hmark hlevel => ?marked,
    fun c id current s hreset hmark hc hlevel hheld => ?short,
    fun current s hphase hmark hc hclear hport hlevel hheld => ?both⟩
  case unmarked =>
    have hstart := (State.startUp_of_unmarked (s := s.running id) hmark).trans (State.startedUp_end _)
    have hquiet : (s.running id).startUp.judgeShort current = (s.running id).startUp :=
      State.judgeShort_at_arming (by rw [hstart]; rfl) (by rw [hstart]; exact hlevel)
    have hbus : (s.running id).releaseMbi.mbi.bus = if s.committed then .active else .listen := by
      change (s.running id).releasedBus = _
      rw [State.releasedBus, if_neg (by simp [State.running, hmark])]
      rfl
    refine ⟨_, exec_resetEnd_quiet hreset hquiet (by rw [hstart]) (by rw [hstart]; rfl), ?_⟩
    rw [hstart]
    refine ⟨rfl, rfl, rfl, rfl, rfl, hbus, rfl, rfl, rfl, rfl, rfl, rfl, rfl, rfl, fun hc htx => ?_, rfl, rfl, rfl, rfl, rfl,
      rfl, rfl⟩
    exact State.handStatus_hasStatus (s := (s.running id).releaseMbi.startedUp) (hbus.trans (if_pos hc)) htx
  case marked =>
    have hfields := State.startUp_marked_fields (s := s.running s.ownId) hmark
    obtain ⟨hid, hcheck, htimer, hcommit, hphase', hbus, hmark', hline, hsilence, hgood, hhold, hstatus, harmed, hshort,
      hcycle, -, hcharge, hconfig, hcommitted, hroster⟩ := hfields
    have hquiet : (s.running s.ownId).startUp.judgeShort current = (s.running s.ownId).startUp :=
      State.judgeShort_at_arming (harmed.trans hcommitted.symm) (by rw [hcommitted, hconfig]; exact hlevel)
    refine ⟨_, exec_resetEnd_quiet (.inr ⟨rfl, hphase, rfl⟩) hquiet hcheck hline, hid, hphase', hcheck, htimer, hcommit,
      hbus, hmark', hline, hsilence, hgood, hhold, hstatus, harmed, hshort, hcycle, ?_, hcharge, hconfig, hcommitted,
      hroster, State.startUp_marked_lockout (s := s.running s.ownId) hmark,
      State.startUp_marked_uncommitted (s := s.running s.ownId) hmark, fun hc hclear hport => ?_⟩
    · rw [State.startUp_marked_fault (s := s.running s.ownId) hmark]
      exact State.takeOnset_present .busSilent _ _ _
    · obtain ⟨htakes, hregister⟩ := State.startUp_marked_trips (s := s.running s.ownId) hmark hc hclear hport
      have hready : ({ s with mbi := { s.mbi with bus := .silent } } : State).TakesTrip
          (Source.busSilent.cause (BitVec.ofNat 16 s.mbi.tec) .localOnly) (s.running s.ownId).startUp :=
        htakes.of_same rfl rfl rfl rfl rfl nofun (fun _ hw => hw) rfl
      obtain ⟨-, hstate, -⟩ := id hready
      exact ⟨hregister, hready, by simpa [Source.cause] using hstate, hready.counts⟩
  case short =>
    intro ready
    have hstart := (State.startUp_of_unmarked (s := s.running id) hmark).trans (State.startedUp_end _)
    have hbus : (s.running id).releaseMbi.mbi.bus = .active := by
      simp [State.releaseMbi, State.releasedBus, State.running, hmark, hc]
    have hcause : (s.running id).startUp.shortCause = s.shortCause :=
      State.shortCause_congr (by rw [hstart]; rfl) (by rw [hstart]; rfl)
    have harmed : (s.running id).startUp.det.shortArmed = true := by rw [hstart]; exact hc
    have hshort : (s.running id).startUp.det.short = false := by rw [hstart]; rfl
    have hlevel' : shortOnsetLevel (fieldNat (s.running id).startUp.config.shortCode) < current := by
      rw [hstart]; exact hlevel
    have hc' : (s.running id).startUp.committed = true := by rw [hstart]; exact hc
    have hfault : (s.running id).startUp.fault = s.fault := by rw [hstart]; rfl
    have hheld' : (s.running id).startUp.fault.register.short.state ≠ .held := by rw [hfault]; exact hheld
    have htrips : hasKind .trip (s.running id).startUp.mbi.list = hasKind .trip s.mbi.list := by
      rw [hstart]
      exact State.handStatus_hasKind (s.running id).releaseMbi.startedUp .trip (by decide)
    have htakes := State.judgeShort_takes current _ harmed hshort hlevel' hc' hheld'
    obtain ⟨hregister, hpresent⟩ := State.judgeShort_reports current _ harmed hshort hlevel' hc' hheld'
    rw [hcause] at htakes
    obtain ⟨t, ht, hend⟩ := conclude_end s ((s.running id).startUp.judgeShort current)
    refine ⟨_, t, (exec_resetEnd hreset).trans ht, hend,
      htakes.of_same (by rw [hstart]; rfl) (by rw [hfault]) (by rw [hstart]; rfl) (by rw [hfault]) (by rw [hstart]; rfl)
        (fun _ => ⟨by rw [hstart]; exact hbus, by rw [hstart]; rfl, htrips⟩) (fun _ hw => hw.of_fault hfault)
        (by rw [hfault]), ?register, ?_⟩
    case register =>
      rw [hregister, hstart]
      rfl
    simp only [State.judgeShort_frame]
    refine ⟨?_, ?_, ?_, ?_, ?_, ?_, ?_, ?_, ?_, fun htripped => ?restarted, harmed, hpresent, ?_, fun htx => ?status, ?_, ?_,
      ?_, ?_⟩
    case restarted =>
      refine State.judgeShort_restarted harmed hshort hlevel' hc' hheld' ?_
      rw [hstart]
      by_cases hlock : s.conn.state = .lockout
      · exact .inl (by simp [State.startedUp, State.releaseMbi, State.running, hlock])
      · exact .inr ⟨htripped, hlock⟩
    case status =>
      refine State.judgeShort_statusStays hheld' hc' ?_
      rw [hstart]
      exact State.handStatus_hasStatus (s := (s.running id).releaseMbi.startedUp) hbus htx
    all_goals rw [hstart]
    case refine_6 => exact hbus
    case refine_9 => simp [State.startedUp, State.releaseMbi, State.running, hc]
    all_goals rfl
  case both =>
    intro ready
    have hstart := (State.startUp_marked_fields (s := s.running s.ownId) hmark)
    obtain ⟨hid, hcheck, htimer, hcommit, hphase', hbus, hmark', hline, -, -, hhold, hstatus, harmed, hshort, hcycle, hsample,
      hcharge, hconfig, hcommitted, hroster⟩ := hstart
    have hcause : (s.running s.ownId).startUp.shortCause = s.shortCause := State.shortCause_congr hsample hconfig
    obtain ⟨htakes, hsilent⟩ := State.startUp_marked_trips (s := s.running s.ownId) hmark hc hclear hport
    have hother : (s.running s.ownId).startUp.fault.register.short = s.fault.register.short := by
      rw [State.startUp_marked_fault (s := s.running s.ownId) hmark]
      exact State.takeOnset_register_other .busSilent .short _ _ _ (by decide) hheld
    have harmed' : (s.running s.ownId).startUp.det.shortArmed = true := harmed.trans hc
    have hlevel' : shortOnsetLevel (fieldNat (s.running s.ownId).startUp.config.shortCode) < current := by
      rw [hconfig]; exact hlevel
    have hc' : (s.running s.ownId).startUp.committed = true := hcommitted.trans hc
    have hheld' : (s.running s.ownId).startUp.fault.register.short.state ≠ .held := by rw [hother]; exact hheld
    have hshortTakes := State.judgeShort_takes current _ harmed' hshort hlevel' hc' hheld'
    obtain ⟨hregister, hpresent⟩ := State.judgeShort_reports current _ harmed' hshort hlevel' hc' hheld'
    rw [hcause] at hshortTakes
    rw [hsample] at hregister
    obtain ⟨t, ht, hend⟩ := conclude_end s ((s.running s.ownId).startUp.judgeShort current)
    refine ⟨_, _, t, (exec_resetEnd (.inr ⟨rfl, hphase, rfl⟩)).trans ht, hend,
      htakes.of_same rfl rfl rfl rfl rfl nofun (fun _ hw => hw) rfl, hcharge, hshortTakes, ?silent, hregister, ?_⟩
    case silent =>
      have hkept := State.judgeShort_register_other current .busSilent (s.running s.ownId).startUp (by decide)
        (by change (s.running s.ownId).startUp.fault.register.busSilent.state ≠ .held; rw [hsilent]; simp)
      exact hkept.trans hsilent
    simp only [State.judgeShort_frame]
    refine ⟨hid, hphase', hcheck, htimer, hcommit, hbus, hmark', hline, hhold, ?_, fun hlock => ?_, harmed', hpresent, hcycle,
      hcharge, hconfig, hcommitted, hroster⟩
    · rw [hstatus]
      exact if_pos hc
    · exact State.judgeShort_restarted harmed' hshort hlevel' hc' hheld'
        (.inl (State.startUp_marked_lockout (s := s.running s.ownId) hmark hlock))

end Sys2Proof.Machine
end

section
/-! PROOF. The transmit list (R12, R13): how a frame handed over is taken, held or merged, and what the end of an attempt
takes. -/

namespace Sys2Proof.Machine

/-! ## The list's operations -/

/-- A frame joins behind those of its rank, which its kind's code decides (R12). -/
theorem Mbi.join_eq (f : Frame) (m : Mbi) :
    m.join f = { m with
      list := m.list.takeWhile (fun g => decide (g.frame.kind.code.toNat ≤ f.kind.code.toNat)) ++ [⟨f, 0⟩]
        ++ m.list.dropWhile (fun g => decide (g.frame.kind.code.toNat ≤ f.kind.code.toNat)) } := by
  rw [Mbi.join, insertFrame_eq]
  rfl

theorem Mbi.putTrip_of_none (p : TripPayload) {m : Mbi} (h : hasKind .trip m.list = false) :
    m.putTrip p = m.join (.trip p) := by
  rw [Mbi.putTrip, if_neg (by simp [h])]

theorem map_mergeTrip_of_none (p : TripPayload) {l : List TxFrame} (h : hasKind .trip l = false) :
    l.map (mergeTrip p) = l := by
  have hfix (f : TxFrame) (hf : f ∈ l) : mergeTrip p f = f := by
    refine mergeTrip_of_ne p f fun hk => ?_
    have htrip : hasKind .trip l = true := (hasKind_iff _ _).2 ⟨f, hf, hk⟩
    simp [h] at htrip
  exact (List.map_congr_left hfix).trans (List.map_id' l)

/-- The one TRIP pending is merged in its place, and keeps its count (R13). -/
theorem Mbi.putTrip_merges (p old : TripPayload) (n : Nat) {before after : List TxFrame} {m : Mbi}
    (hlist : m.list = before ++ [⟨.trip old, n⟩] ++ after) (hbefore : hasKind .trip before = false)
    (hafter : hasKind .trip after = false) :
    m.putTrip p = { m with list := before
      ++ [⟨.trip { p with scope := if p.scope = 1 ∨ old.scope = 1 then 1 else 0 }, n⟩] ++ after } := by
  have hpends : hasKind .trip m.list = true := (hasKind_iff _ _).2 ⟨⟨.trip old, n⟩, by simp [hlist], rfl⟩
  rw [Mbi.putTrip, if_pos hpends, hlist, List.map_append, List.map_append, map_mergeTrip_of_none p hbefore,
    map_mergeTrip_of_none p hafter]
  rfl

theorem Mbi.putTrip_eq (p : TripPayload) (m : Mbi) : m.putTrip p = { m with list := (m.putTrip p).list } := by
  unfold Mbi.putTrip
  split <;> rfl

theorem Mbi.putStatus_eq (p : StatusPayload) (m : Mbi) : m.putStatus p = { m with list := (m.putStatus p).list } := by
  unfold Mbi.putStatus
  split <;> rfl

theorem Mbi.putTrip_hasTrip (p : TripPayload) (m : Mbi) : hasKind .trip (m.putTrip p).list = true := by
  unfold Mbi.putTrip
  split
  · next h => simpa using h
  · simp [Mbi.join, Frame.kind]

/-- A pending STATUS takes the new payload, and every other frame stays as it is (R13). -/
theorem replaceStatus_eq (p : StatusPayload) (f : TxFrame) :
    replaceStatus p f = if f.frame.kind = .status then { f with frame := .status p } else f := by
  split
  · next h => exact replaceStatus_of_status p f h
  · next h => exact replaceStatus_of_ne p f h

/-! ## The frames held for the end of an attempt -/

/-- The first part of `releaseHeld`: the held TRIP is taken. -/
def Mbi.takeHeldTrip (m : Mbi) : Mbi :=
  match m.heldTrip with
  | some p => { m.putTrip p with heldTrip := none }
  | none => m

/-- Its second part: the held STATUS is taken. -/
def Mbi.takeHeldStatus (m : Mbi) : Mbi :=
  match m.heldStatus with
  | some p => { m.putStatus p with heldStatus := none }
  | none => m

theorem Mbi.releaseHeld_eq (m : Mbi) : m.releaseHeld = m.takeHeldTrip.takeHeldStatus := by
  unfold Mbi.releaseHeld Mbi.takeHeldTrip Mbi.takeHeldStatus
  cases m.heldTrip <;> rfl

theorem Mbi.takeHeldTrip_of_some {p : TripPayload} {m : Mbi} (h : m.heldTrip = some p) :
    m.takeHeldTrip = { m.putTrip p with heldTrip := none } := by
  simp only [Mbi.takeHeldTrip, h]

theorem Mbi.takeHeldTrip_eq (m : Mbi) :
    m.takeHeldTrip = { m with list := m.takeHeldTrip.list, heldTrip := none } := by
  cases h : m.heldTrip with
  | none =>
    simp only [Mbi.takeHeldTrip, h]
    rw [← h]
  | some p =>
    rw [Mbi.takeHeldTrip_of_some h, Mbi.putTrip_eq]

theorem Mbi.takeHeldStatus_of_some {p : StatusPayload} {m : Mbi} (h : m.heldStatus = some p) :
    m.takeHeldStatus = { m.putStatus p with heldStatus := none } := by
  simp only [Mbi.takeHeldStatus, h]

theorem Mbi.takeHeldStatus_of_none {m : Mbi} (h : m.heldStatus = none) : m.takeHeldStatus = m := by
  simp only [Mbi.takeHeldStatus, h]

theorem Mbi.takeHeldStatus_eq (m : Mbi) :
    m.takeHeldStatus = { m with list := m.takeHeldStatus.list, heldStatus := none } := by
  cases h : m.heldStatus with
  | none =>
    rw [Mbi.takeHeldStatus_of_none h]
    rw [← h]
  | some p =>
    rw [Mbi.takeHeldStatus_of_some h, Mbi.putStatus_eq]

/-- The held STATUS moves no frame of another kind out of the list. -/
theorem Mbi.mem_takeHeldStatus {f : TxFrame} {m : Mbi} (hk : f.frame.kind ≠ .status) (hf : f ∈ m.list) :
    f ∈ m.takeHeldStatus.list := by
  cases h : m.heldStatus with
  | none => rwa [Mbi.takeHeldStatus_of_none h]
  | some p =>
    rw [Mbi.takeHeldStatus_of_some h]
    exact Mbi.mem_putStatus_of_mem p m f hk hf

theorem Mbi.releaseHeld_list_of_noStatus {m : Mbi} (h : m.heldStatus = none) :
    m.releaseHeld.list = m.takeHeldTrip.list := by
  have hnone : m.takeHeldTrip.heldStatus = none := by rw [Mbi.takeHeldTrip_eq]; exact h
  rw [Mbi.releaseHeld_eq, Mbi.takeHeldStatus_of_none hnone]

/-- Settles O13: `queueFrame` by the kind of the frame, and `releaseHeld` in its two parts. -/
theorem handedAndHeldFrames : Obligations.HandedAndHeldFrames := by
  refine ⟨fun s => ?handed, fun m => ?held⟩
  case handed =>
    intro joins
    have hqueue (hb : s.mbi.bus = .active) (f : Frame) : s.queueFrame f = match f with
        | .status p => { s with mbi := s.mbi.handStatus p }
        | .trip p => { s with mbi := s.mbi.handTrip p }
        | .object _ | .assent _ => if 4 ≤ answersPending s.mbi.list then s.setEvent .answerDropped
          else { s with mbi := s.mbi.join f }
        | .claim _ | .closed _ | .abandon _ | .release => { s with mbi := s.mbi.join f } := by
      unfold State.queueFrame
      rw [if_neg (by simp [hb])]
      cases f <;> rfl
    have hjoins (f : Frame) : ({ s with mbi := s.mbi.join f } : State) = joins f := by rw [Mbi.join_eq]
    refine ⟨fun hb f => State.queueFrame_of_not_active f s hb, fun hb => ⟨fun f hf => ?own, fun f hf => ?answer,
      fun p hline => ?statusHeld, fun p hline hnone => ?statusJoins, fun p hline hsome => ?statusReplaced,
      fun p hline hnone => ?tripHeld, fun p old hline hold => ?tripHeldMerged, fun p hline hnone => ?tripJoins,
      fun p old n before after hline hlist hbefore hafter => ?tripMerged⟩⟩
    all_goals rw [hqueue hb]
    case own =>
      cases f with
      | claim p | closed p | abandon p | release => exact hjoins _
      | status p | trip p | object p | assent p => simp [Frame.kind, FrameKind.isOwnConnection] at hf
    case answer =>
      cases f with
      | object p | assent p =>
        dsimp only
        rw [hjoins]
      | status p | trip p | claim p | closed p | abandon p | release => simp [Frame.kind, FrameKind.isAnswer] at hf
    case statusHeld => simp only [Mbi.handStatus, hline, if_true]
    case statusJoins =>
      simp only [Mbi.handStatus, hline, if_false, Mbi.putStatus, hnone, Bool.false_eq_true]
      exact hjoins _
    case statusReplaced =>
      simp only [Mbi.handStatus, hline, if_false, Mbi.putStatus, hsome, if_true, funext (replaceStatus_eq p)]
    case tripHeld => simp only [Mbi.handTrip, hline, if_true, hnone]
    case tripHeldMerged =>
      simp only [Mbi.handTrip, hline, if_true, hold]
      rfl
    case tripJoins =>
      simp only [Mbi.handTrip, hline, if_false, Mbi.putTrip_of_none p hnone]
      exact hjoins _
    case tripMerged =>
      simp only [Mbi.handTrip, hline, if_false, Mbi.putTrip_merges p old n hlist hbefore hafter]
  case held =>
    have htrip (p : TripPayload) (h : m.heldTrip = some p) : m.takeHeldTrip.list = (m.putTrip p).list := by
      rw [Mbi.takeHeldTrip_of_some h]
    have hstays {f : TxFrame} (hk : f.frame.kind ≠ .status) (hf : f ∈ m.takeHeldTrip.list) : f ∈ m.releaseHeld.list := by
      rw [Mbi.releaseHeld_eq]
      exact Mbi.mem_takeHeldStatus hk hf
    have hfields : m.releaseHeld = { m with list := m.releaseHeld.list, heldStatus := none, heldTrip := none } := by
      rw [Mbi.releaseHeld_eq, Mbi.takeHeldStatus_eq, Mbi.takeHeldTrip_eq]
    refine ⟨by rw [hfields], by rw [hfields], hfields, fun hs ht => ?nothing, fun p hp => ?statusIn, fun hsome => ?tripStands,
      fun p hp hnone => ⟨?tripIn, fun hs => ?tripTaken⟩,
      fun p old n before after hp hlist hbefore hafter => ⟨?mergedIn, fun hs => ?merged⟩⟩
    case nothing => rw [Mbi.releaseHeld_list_of_noStatus hs, Mbi.takeHeldTrip, ht]
    case statusIn =>
      have hs : m.takeHeldTrip.heldStatus = some p := by rw [Mbi.takeHeldTrip_eq]; exact hp
      rw [Mbi.releaseHeld_eq, Mbi.takeHeldStatus_of_some hs]
      exact Mbi.putStatus_mem p _
    case tripStands =>
      obtain ⟨p, hp⟩ := Option.isSome_iff_exists.1 hsome
      have hin : hasKind .trip m.takeHeldTrip.list = true := by rw [htrip p hp]; exact Mbi.putTrip_hasTrip p m
      obtain ⟨f, hf, hk⟩ := (hasKind_iff _ _).1 hin
      exact (hasKind_iff _ _).2 ⟨f, hstays (by simp [hk]) hf, hk⟩
    case tripIn =>
      refine hstays (by simp [Frame.kind]) ?_
      rw [htrip p hp, Mbi.putTrip_of_none p hnone, Mbi.join_eq]
      simp
    case tripTaken =>
      rw [Mbi.releaseHeld_list_of_noStatus hs, htrip p hp, Mbi.putTrip_of_none p hnone, Mbi.join_eq]
      rfl
    case mergedIn =>
      refine hstays (by simp [Frame.kind]) ?_
      rw [htrip p hp, Mbi.putTrip_merges p old n hlist hbefore hafter]
      simp
    case merged =>
      rw [Mbi.releaseHeld_list_of_noStatus hs, htrip p hp, Mbi.putTrip_merges p old n hlist hbefore hafter]

end Sys2Proof.Machine
end

section
/-! PROOF. Receiving (R3 to R9, R13, R14, R16, R17, R25): what reading a frame to its end does, a frame found faulty, and
what every accepted frame leaves. -/

namespace Sys2Proof.Machine

/-! ## A frame read to its end -/

theorem State.startMarkRead_silenceTimer (s : State) :
    s.startMarkRead.mbi.silenceTimer
      = if s.mbi.bus = .silent ∧ s.mbi.permanentSilence = false then some 2000 else s.mbi.silenceTimer := by
  unfold State.startMarkRead
  split <;> rfl

/-- Receiving changes the MBI alone. -/
theorem State.receiving_mbi (s : State) : s.receiving = { s with mbi := s.receiving.mbi } := by
  have hmark : s.startMarkRead = { s with mbi := s.startMarkRead.mbi } := by
    unfold State.startMarkRead
    split <;> rfl
  unfold State.receiving
  dsimp only
  rw [hmark]

theorem State.receiving_fields (s : State) :
    s.receiving.mbi.line = .busy ∧ s.receiving.mbi.slotDriven = false
      ∧ s.receiving.mbi.silenceTimer
          = (if s.mbi.bus = .silent ∧ s.mbi.permanentSilence = false then some 2000 else s.mbi.silenceTimer) := by
  refine ⟨rfl, rfl, ?_⟩
  rw [← State.startMarkRead_silenceTimer]
  simp [State.receiving]

theorem Mbi.releaseHeld_of_nothing {m : Mbi} (hstatus : m.heldStatus = none) (htrip : m.heldTrip = none) :
    m.releaseHeld = m := by
  rw [Mbi.releaseHeld_eq, Mbi.takeHeldTrip, htrip]
  exact Mbi.takeHeldStatus_of_none hstatus

theorem Mbi.loseArbitration_of_none {m : Mbi} (h : m.tx = .none) : m.loseArbitration = m := by
  simp only [Mbi.loseArbitration, h]

/-- A frame that was being sent has lost arbitration; a CLAIM whose withdrawal waits leaves the list (R4, R14). -/
theorem Mbi.loseArbitration_of_sending {k : FrameKind} {m : Mbi} (h : m.tx = .sending k) :
    m.loseArbitration = (if k = .claim ∧ m.withdrawal.isSome then
        Mbi.takeWithdrawal { m with tx := .none, line := .busy }
      else { m with tx := .none, line := .busy }).releaseHeld := by
  simp only [Mbi.loseArbitration, h]

/-- Settles O19: the parts of `receiving`, and the two frames that have no effect of their kind. -/
theorem receivingAFrame : Obligations.ReceivingAFrame := by
  refine ⟨fun s => ?receives, fun frame s hhears => ⟨fun hwf => ?rejected, fun hwf => ?unknown⟩⟩
  case receives =>
    obtain ⟨hline, -, htimer⟩ := State.receiving_fields s
    refine ⟨State.receiving_mbi s, hline, by simp, by simp, by simp, by simp, htimer, fun htx => ?idle, fun k htx => ?sending⟩
    case idle =>
      have hnone : s.startMarkRead.mbi.loseArbitration = s.startMarkRead.mbi :=
        Mbi.loseArbitration_of_none (by simpa using htx)
      simp [State.receiving, hnone, htx]
    case sending =>
      have hlost := Mbi.loseArbitration_of_sending (m := s.startMarkRead.mbi) (k := k) (by simpa using htx)
      refine ⟨?_, fun hstatus htrip hwithdrawal => ?_, fun hstatus htrip hwithdrawal hk => ?_⟩
      · simp only [State.receiving, hlost]
        split <;> simp [Mbi.takeWithdrawal]
      · have hstays : ({ s.startMarkRead.mbi with tx := .none, line := .busy } : Mbi).releaseHeld
            = { s.startMarkRead.mbi with tx := .none, line := .busy } :=
          Mbi.releaseHeld_of_nothing (by simpa using hstatus) (by simpa using htrip)
        rw [if_neg (by simp [hwithdrawal]), hstays] at hlost
        simp [State.receiving, hlost]
      · have hleaves : (Mbi.takeWithdrawal { s.startMarkRead.mbi with tx := .none, line := .busy }).releaseHeld
            = Mbi.takeWithdrawal { s.startMarkRead.mbi with tx := .none, line := .busy } :=
          Mbi.releaseHeld_of_nothing (by simpa [Mbi.takeWithdrawal] using hstatus)
            (by simpa [Mbi.takeWithdrawal] using htrip)
        have hclaim : k = .claim ∧ s.startMarkRead.mbi.withdrawal.isSome = true := ⟨hk, by simpa using hwithdrawal⟩
        rw [if_pos hclaim, hleaves] at hlost
        simp [State.receiving, hlost, Mbi.takeWithdrawal]
  case rejected =>
    rw [exec, execFrameRejected, if_pos hwf, heard_of_hears _ _ hhears]
    exact conclude_end _ _
  case unknown =>
    have hcount : s.receiving.countGood frame.source
        = if s.mbi.bus = .silent ∧ s.mbi.permanentSilence = false then
            { s.receiving with mbi := { s.receiving.mbi with
              goodCount := if frame.rank.extractLsb' 0 4 = s.ownId then 0 else min 16 (s.mbi.goodCount + 1) } }
          else s.receiving := by
      simp only [State.countGood, State.receiving_frame]
      rfl
    rw [exec, execUnknownKindFrame, if_pos hwf, heard_of_hears _ _ hhears, hcount]
    exact conclude_end _ _

/-! ## The end of a command after a trip -/

/-- A station that has tripped is not ISOLATED: no test is made at the end of the command. -/
theorem State.HasTripped.retest {u : State} (h : u.HasTripped) (before : State) : u.retest before = u := by
  have hstate : u.conn.state ≠ .isolated := by rcases h.1 with h | h <;> simp [h]
  have htest : u.eligibilityTest = u := by
    rw [State.eligibilityTest, if_neg (by simp [State.claimConditions, hstate])]
  rw [State.retest, htest, ite_self]

theorem State.TakesTrip.retest {d : TripCause} {s u : State} (h : s.TakesTrip d u) {before : State} :
    u.retest before = u := State.HasTripped.retest h.1 before

/-- The offer on an idle line touches nothing of a trip taken. -/
theorem State.TakesTrip.offer {d : TripCause} {s u : State} (h : s.TakesTrip d u) : s.TakesTrip d u.offer :=
  h.later (by simp) (by simp) (by simp) (by simp) (by simp) (by simp) (by simp) (by simp) (by simp)
    (by simp [State.hasEvent]) (fun f _ hp => by simpa [State.Pends] using hp)

/-! ## A frame found faulty -/

/-- REC one above, the good frames forgotten and the slot driven where the station may reject (R6, R17). -/
def State.faultCounted (s : State) : State :=
  { s.receiving with mbi := { s.receiving.mbi with
    slotDriven := decide (s.mbi.bus = .active) && !s.mbi.rejectMuted
    recCount := min 255 (s.mbi.recCount + 1)
    goodCount := 0 } }

/-- The state in which RX_DEGRADED is reported. -/
def State.degraded (s : State) : State :=
  { s.faultCounted with mbi := { s.faultCounted.mbi with rejectMuted := true } }

theorem State.findFaulty_receiving (s : State) :
    s.receiving.findFaulty
      = if 127 ≤ s.mbi.recCount ∧ s.mbi.rejectMuted = false then
          s.degraded.takeOnset .rxDegraded (BitVec.ofNat 16 (min 255 (s.mbi.recCount + 1))) .localOnly
        else s.faultCounted := by
  have hreaches : 128 ≤ min 255 (s.receiving.mbi.recCount + 1) ↔ 127 ≤ s.receiving.mbi.recCount := by omega
  have hbus : s.receiving.mbi.bus = s.mbi.bus := by simp
  have hrec : s.receiving.mbi.recCount = s.mbi.recCount := by simp
  have hmuted : s.receiving.mbi.rejectMuted = s.mbi.rejectMuted := by simp
  unfold State.findFaulty State.degraded State.faultCounted
  rw [← hbus, ← hrec, ← hmuted]
  simp only [hreaches]
  rfl

theorem exec_frameFaulty {frame : RawFrame} {s : State} (hwf : (Instr.frameFaulty frame).wf = true)
    (hhears : s.hears = true) : exec (.frameFaulty frame) s = conclude s s.receiving.findFaulty := by
  rw [exec, execFrameFaulty, if_pos hwf, heard_of_hears _ _ hhears]

/-- Settles O18: `findFaulty` below and at 128. -/
theorem faultyFrame : Obligations.FaultyFrame := by
  intro frame s hwf hhears
  refine ⟨fun hbelow => ?below, fun hreaches hmuted => ?reaches⟩
  case below =>
    rw [exec_frameFaulty hwf hhears, State.findFaulty_receiving, if_neg (by rintro ⟨h1, h2⟩; simp [h2] at hbelow; omega)]
    exact conclude_end _ _
  case reaches =>
    have hfields : s.degraded.mbi.slotDriven = decide (s.mbi.bus = .active) := by
      simp [State.degraded, State.faultCounted, hmuted]
    have hexec := exec_frameFaulty hwf hhears
    rw [State.findFaulty_receiving, if_pos ⟨hreaches, hmuted⟩] at hexec
    have hfault : s.degraded.fault = s.fault := by simp [State.degraded, State.faultCounted]
    have hcom : s.degraded.committed = s.committed := by simp [State.degraded, State.faultCounted]
    have hpresent := State.takeOnset_present .rxDegraded (BitVec.ofNat 16 (min 255 (s.mbi.recCount + 1))) .localOnly
      s.degraded
    have hacts (hc : s.committed = true) : s.degraded.actsOn .rxDegraded = true :=
      State.actsOn_of_committed _ (hcom.trans hc)
    have hholds : s.degraded.isHeld .rxDegraded = s.fault.portHolds.getLsbD 9 := by
      rw [State.isHeld, hfault]
      simp [Source.isOverCurrent, Source.code, Source.classB]
    refine ⟨_, hexec, by simp [State.degraded], by simp [State.degraded, State.faultCounted],
      by simp [State.degraded, State.faultCounted], by simpa using hfields, by simpa [FaultRegister.get] using hpresent,
      by simp [State.degraded, State.faultCounted], by simp [State.degraded, State.faultCounted],
      by simp [State.degraded, State.faultCounted], by simp [State.degraded, State.faultCounted],
      fun hc hclear hport => ?trips, fun hc hclear hport => ?held⟩
    case trips =>
      have harmed : (s.degraded.fault.register.get .rxDegraded).state = .clear := by rw [hfault]; exact hclear
      have htakes := State.takeOnset_takes .rxDegraded (BitVec.ofNat 16 (min 255 (s.mbi.recCount + 1))) .localOnly
        s.degraded rfl ⟨hacts hc, .inl ⟨.inl harmed, hholds.trans hport⟩⟩
      have hregister := State.takeOnset_register_armed .rxDegraded (BitVec.ofNat 16 (min 255 (s.mbi.recCount + 1)))
        .localOnly s.degraded (hacts hc) (.inl ⟨.inl harmed, hholds.trans hport⟩)
      rw [htakes.retest]
      refine ⟨?_, htakes.offer.of_same rfl rfl rfl rfl rfl (fun hb => ⟨hb, rfl, rfl⟩) (fun _ h => h) rfl⟩
      have hstate := congrArg SourceRecord.state hregister
      simpa [FaultRegister.get] using hstate
    case held =>
      have harmed : (s.degraded.fault.register.get .rxDegraded).state = .clear := by rw [hfault]; exact hclear
      have hcovered := State.takeOnset_covered (BitVec.ofNat 16 (min 255 (s.mbi.recCount + 1))) .localOnly (hacts hc)
        (.inl harmed) (hholds.trans hport)
      rw [hcovered]
      simp [State.setSource_register, FaultRegister.set]

end Sys2Proof.Machine
end

section
/-! PROOF. Accepted frames (R8, R9, R25 to R30, R42): the three ways in which an accepted frame is taken, the refresh of its
sender's entry, and the frames that touch the Roster and the record alone. -/

namespace Sys2Proof.Machine

/-! ## How an accepted frame is taken -/

/-- The state in which an accepted frame takes the effect of its kind. -/
def State.accepting (src : StationId) (s : State) : State := s.receiving.acceptFrame src

theorem accepted_known {src : StationId} {f : Frame} (effect : State → State) {s : State} (hhears : s.hears = true)
    (hsrc : src ≠ s.ownId) (hf : f.refreshOnly = false) :
    accepted src f effect s = conclude s (effect (s.accepting src)) := by
  rw [accepted, heard_of_hears _ _ hhears]
  simp [hsrc, hf, State.accepting]

theorem accepted_refreshOnly {src : StationId} {f : Frame} (effect : State → State) {s : State}
    (hhears : s.hears = true) (hsrc : src ≠ s.ownId) (hf : f.refreshOnly = true) :
    accepted src f effect s = conclude s ((s.accepting src).rosterFrame src id) := by
  rw [accepted, heard_of_hears _ _ hhears]
  simp [hsrc, hf, State.accepting]

theorem accepted_own {src : StationId} {f : Frame} (effect : State → State) {s : State} (hhears : s.hears = true)
    (hsrc : src = s.ownId) : accepted src f effect s = conclude s (s.accepting src).duplicateId := by
  rw [accepted, heard_of_hears _ _ hhears]
  simp [hsrc, State.accepting]

/-- Accepting touches the MBI, the register's RX_DEGRADED and nothing that the Roster, the closure engine or the connection
hold. -/
@[simp] theorem State.accepting_frame (src : StationId) (s : State) :
    (s.accepting src).ownId = s.ownId ∧ (s.accepting src).config = s.config
      ∧ (s.accepting src).committed = s.committed ∧ (s.accepting src).roster = s.roster
      ∧ (s.accepting src).closure = s.closure ∧ (s.accepting src).meas = s.meas ∧ (s.accepting src).charge = s.charge
      ∧ (s.accepting src).det = s.det ∧ (s.accepting src).power = s.power
      ∧ (s.accepting src).conn.state = s.conn.state ∧ (s.accepting src).mbi.bus = s.mbi.bus
      ∧ (s.accepting src).mbi.tec = s.mbi.tec ∧ (s.accepting src).port.enables = s.port.enables := by
  simp [State.accepting]

/-! ## The sender's entry (R25) -/

theorem rosterGet_rosterSet_self (id : StationId) (e : RosterEntry) (r : List RosterSlot) :
    rosterGet id (rosterSet id e r) = some e := by
  induction r with
  | nil => simp [rosterSet, rosterGet]
  | cons x xs ih =>
    unfold rosterSet
    split
    · simp [rosterGet]
    · split
      · simp [rosterGet]
      · next hne => simp [rosterGet, hne, ih]

/-- PEER_ARRIVED is set where the entry was EMPTY. -/
def State.noteArrival (id : StationId) (s : State) : State :=
  if (rosterGet id s.roster).isNone then s.setEvent .peerArrived else s

theorem State.rosterFrame_eq (id : StationId) (update : RosterEntry → RosterEntry) (s : State) :
    s.rosterFrame id update
      = { s.noteArrival id with roster := rosterSet id (update (refreshedEntry id s.roster)) s.roster } := by
  unfold State.rosterFrame State.noteArrival
  split <;> rfl

theorem State.rosterFrame_self (id : StationId) (update : RosterEntry → RosterEntry) (s : State) :
    rosterGet id (s.rosterFrame id update).roster = some (update (refreshedEntry id s.roster)) := by
  rw [State.rosterFrame_eq]
  exact rosterGet_rosterSet_self _ _ _

theorem State.rosterFrame_other {id other : StationId} (update : RosterEntry → RosterEntry) (s : State) (h : other ≠ id) :
    rosterGet other (s.rosterFrame id update).roster = rosterGet other s.roster := by
  rw [State.rosterFrame_eq]
  exact rosterGet_rosterSet_of_ne _ _ h

theorem State.rosterFrame_arrived {id : StationId} (update : RosterEntry → RosterEntry) {s : State}
    (h : rosterGet id s.roster = none) : (s.rosterFrame id update).hasEvent .peerArrived = true := by
  rw [State.rosterFrame_eq, State.noteArrival, if_pos (by simp [h])]
  exact State.hasEvent_setEvent_self .peerArrived s

/-- The refresh changes the Roster and the events alone. -/
theorem State.rosterFrame_rest (id : StationId) (update : RosterEntry → RosterEntry) (s : State) :
    s.rosterFrame id update = { s with
      roster := (s.rosterFrame id update).roster
      port := { s.port with events := (s.rosterFrame id update).port.events } } := by
  unfold State.rosterFrame
  dsimp only
  split <;> rfl

theorem refreshedEntry_fields (id : StationId) (r : List RosterSlot) :
    (refreshedEntry id r).age = 0 ∧ (refreshedEntry id r).state = .present
      ∧ (refreshedEntry id r).trippedLocal = ((rosterGet id r).map (·.trippedLocal)).getD false
      ∧ (refreshedEntry id r).lastClaim = (rosterGet id r).bind (·.lastClaim) := by
  unfold refreshedEntry
  cases rosterGet id r <;> simp [RosterEntry.fresh]

theorem refreshedEntry_of_some {id : StationId} {r : List RosterSlot} {old : RosterEntry}
    (h : rosterGet id r = some old) : refreshedEntry id r = { old with state := .present, age := 0 } := by
  simp only [refreshedEntry, h]

/-! ## The record (R42) -/

theorem State.clearRecordOf_eq (id : StationId) (s : State) :
    s.clearRecordOf id = { s with closure := { s.closure with
      record := if (s.closure.record.map (·.holder)) = some id then none else s.closure.record } } := by
  unfold State.clearRecordOf
  cases hr : s.closure.record with
  | none =>
    simp only [Option.map_none, reduceCtorEq, if_false]
    rw [← hr]
  | some r =>
    by_cases hh : r.holder = id
    · simp [hh]
    · simp only [hh, if_false, Option.map_some, Option.some.injEq]
      rw [← hr]

theorem State.clearRecordFor_of_holds {id : StationId} {number : Byte} {s : State}
    (h : ∃ r, s.closure.record = some r ∧ r.holder = id ∧ r.number = number) :
    s.clearRecordFor id number = { s with closure := { s.closure with record := none } } := by
  obtain ⟨r, hr, hholder, hnumber⟩ := h
  simp [State.clearRecordFor, hr, hholder, hnumber]

theorem State.clearRecordFor_of_not {id : StationId} {number : Byte} {s : State}
    (h : ¬ ∃ r, s.closure.record = some r ∧ r.holder = id ∧ r.number = number) : s.clearRecordFor id number = s := by
  unfold State.clearRecordFor
  cases hr : s.closure.record with
  | none => rfl
  | some r => exact if_neg fun hh => h ⟨r, hr, hh⟩

/-! ## STATUS and a TRIP that is not bus-wide -/

theorem ConnState.ofCode_eq_tripped_iff (c : BitVec 3) : ConnState.ofCode c = .tripped ↔ c = 6 := by
  unfold ConnState.ofCode
  constructor
  · intro h
    by_contra hc
    (repeat' split at h) <;> simp_all
  · rintro rfl
    rfl

/-- The state of a STATUS that is taken (R26, R27, R42). -/
def State.statusTaken (src : StationId) (p : StatusPayload) (s : State) : State :=
  if p.restartedFlag then ((s.accepting src).rosterFrame src (RosterEntry.takeStatus p)).clearRecordOf src
  else (s.accepting src).rosterFrame src (RosterEntry.takeStatus p)

theorem exec_statusReceived {src : StationId} {p : StatusPayload} {s : State} (hhears : s.hears = true)
    (hsrc : src ≠ s.ownId) (hf : (Frame.status p).refreshOnly = false) :
    exec (.statusReceived src p) s = conclude s (s.statusTaken src p) := by
  rw [exec, execStatusReceived, accepted_known _ hhears hsrc hf]
  rfl

theorem exec_tripReceived_local {src : StationId} {p : TripPayload} {s : State} (hhears : s.hears = true)
    (hsrc : src ≠ s.ownId) (hf : (Frame.trip p).refreshOnly = false) (hscope : p.scope = 0) :
    exec (.tripReceived src p) s = conclude s
      (((s.accepting src).rosterFrame src fun e => { e with trippedLocal := true }).clearRecordOf src) := by
  rw [exec, execTripReceived, accepted_known _ hhears hsrc hf, if_neg (by rw [hscope]; decide)]

theorem exec_closedReceived {src : StationId} (p : ClosedPayload) {s : State} (hhears : s.hears = true)
    (hsrc : src ≠ s.ownId) :
    exec (.closedReceived src p) s = conclude s (((s.accepting src).rosterFrame src fun e =>
      { e with announced := some .connected, trippedLocal := false }).clearRecordFor src p.number) := by
  rw [exec, execClosedReceived, accepted_known _ hhears hsrc rfl]

theorem exec_abandonReceived {src : StationId} {p : AbandonPayload} {s : State} (hhears : s.hears = true)
    (hsrc : src ≠ s.ownId) (hf : (Frame.abandon p).refreshOnly = false) :
    exec (.abandonReceived src p) s
      = conclude s (((s.accepting src).rosterFrame src id).clearRecordFor src p.number) := by
  rw [exec, execAbandonReceived, accepted_known _ hhears hsrc hf]

theorem exec_releaseReceived {src : StationId} {s : State} (hhears : s.hears = true) (hsrc : src ≠ s.ownId) :
    exec (.releaseReceived src) s = conclude s ((s.accepting src).rosterFrame src RosterEntry.takeRelease) := by
  rw [exec, execReleaseReceived, accepted_known _ hhears hsrc rfl]

/-- Settles O22: the entry by `takeStatus` and by the mark, the record by `clearRecordOf_eq`. -/
theorem statusAndLocalTrip : Obligations.StatusAndLocalTrip := by
  refine ⟨fun src p s hhears hsrc hf => ?status, fun src p s hhears hsrc hf hscope => ?localTrip⟩
  case status =>
    obtain ⟨t, ht, hend⟩ := conclude_end s (s.statusTaken src p)
    obtain ⟨hage, -, hmark, hclaim⟩ := refreshedEntry_fields src s.roster
    have hroster : (s.statusTaken src p).roster
        = ((s.accepting src).rosterFrame src (RosterEntry.takeStatus p)).roster := by
      unfold State.statusTaken
      split <;> simp
    have hrest := State.rosterFrame_rest src (RosterEntry.takeStatus p) (s.accepting src)
    refine ⟨_, t, (exec_statusReceived hhears hsrc hf).trans ht, hend, ?entry, ?record, ?rest⟩
    case entry =>
      rw [hroster, State.rosterFrame_self]
      have htripped : decide (p.connState = .tripped) = decide (p.stateByte.extractLsb' 5 3 = 6) :=
        decide_eq_decide.mpr (ConnState.ofCode_eq_tripped_iff _)
      simp only [State.accepting_frame, RosterEntry.takeStatus, hage, hmark, hclaim, StatusPart.ofPayload, htripped]
      rfl
    case record =>
      unfold State.statusTaken
      by_cases hflag : p.restartedFlag = true
      · have hbit : p.flagsByte.getLsbD 6 = true := hflag
        rw [if_pos hflag, State.clearRecordOf_eq]
        simp [hbit]
      · have hbit : ¬ p.flagsByte.getLsbD 6 = true := hflag
        rw [if_neg hflag, if_neg fun h => hbit h.1]
        simp
    case rest =>
      unfold State.statusTaken
      split
      · rw [State.clearRecordOf_eq, hrest]
        rfl
      · rw [show ((s.accepting src).rosterFrame src (RosterEntry.takeStatus p)).closure = (s.accepting src).closure by simp]
        exact hrest
  case localTrip =>
    obtain ⟨t, ht, hend⟩ := conclude_end s
      (((s.accepting src).rosterFrame src fun e => { e with trippedLocal := true }).clearRecordOf src)
    obtain ⟨hage, hstate, -⟩ := refreshedEntry_fields src s.roster
    have hrest := State.rosterFrame_rest src (fun e => { e with trippedLocal := true }) (s.accepting src)
    refine ⟨_, t, (exec_tripReceived_local hhears hsrc hf hscope).trans ht, hend,
      ⟨{ refreshedEntry src s.roster with trippedLocal := true }, ?marked, rfl, hstate, hage,
        fun old hold => by rw [refreshedEntry_of_some hold]⟩, ?kept, ?others⟩
    case marked =>
      rw [State.clearRecordOf_eq]
      have hself := State.rosterFrame_self src (fun e => { e with trippedLocal := true }) (s.accepting src)
      rw [show (s.accepting src).roster = s.roster by simp] at hself
      exact hself
    case kept =>
      rw [State.clearRecordOf_eq]
      simp
    case others =>
      rw [State.clearRecordOf_eq, hrest]
      rfl

/-! ## CLOSED, ABANDON and RELEASE -/

/-- Settles O26: each of the three is a refresh and at most a cleared record. -/
theorem closedAbandonRelease : Obligations.ClosedAbandonRelease := by
  intro src number reason vbus s hhears hsrc v fresh cleared known
  have hroster : (s.accepting src).roster = s.roster := by simp
  have hfresh : refreshedEntry src s.roster = fresh := by
    dsimp only [fresh]
    unfold refreshedEntry
    cases rosterGet src s.roster <;> rfl
  have hv : (s.accepting src).noteArrival src = v := by
    rw [State.noteArrival, hroster]
    rfl
  have hclosure : v.closure = s.closure := by
    rw [← hv, State.noteArrival]
    split
    · exact (by simp : ((s.accepting src).setEvent .peerArrived).closure = s.closure)
    · simp
  have hrefreshed (update : RosterEntry → RosterEntry) :
      (s.accepting src).rosterFrame src update = known (update fresh) s.closure.record := by
    rw [State.rosterFrame_eq, hroster, hfresh, hv]
    dsimp only [known]
    rw [← hclosure]
  have hcleared (update : RosterEntry → RosterEntry) :
      ((s.accepting src).rosterFrame src update).clearRecordFor src number = known (update fresh) cleared := by
    rw [hrefreshed]
    by_cases hholds : ∃ r, s.closure.record = some r ∧ r.holder = src ∧ r.number = number
    · rw [State.clearRecordFor_of_holds (s := known (update fresh) s.closure.record) hholds]
      dsimp only [known, cleared]
      rw [if_pos hholds]
    · rw [State.clearRecordFor_of_not (s := known (update fresh) s.closure.record) hholds]
      dsimp only [known, cleared]
      rw [if_neg hholds]
  refine ⟨?closed, fun h1 h4 => ?abandon, ?release⟩
  case closed =>
    obtain ⟨t, ht, hend⟩ := conclude_end s (((s.accepting src).rosterFrame src fun e =>
      { e with announced := some .connected, trippedLocal := false }).clearRecordFor src number)
    rw [hcleared] at hend
    exact ⟨t, (exec_closedReceived _ hhears hsrc).trans ht, hend⟩
  case abandon =>
    obtain ⟨t, ht, hend⟩ := conclude_end s (((s.accepting src).rosterFrame src id).clearRecordFor src number)
    rw [hcleared] at hend
    exact ⟨t, (exec_abandonReceived hhears hsrc (by simp [Frame.refreshOnly, h1, h4])).trans ht, hend⟩
  case release =>
    obtain ⟨t, ht, hend⟩ := conclude_end s ((s.accepting src).rosterFrame src RosterEntry.takeRelease)
    rw [hrefreshed] at hend
    exact ⟨t, (exec_releaseReceived hhears hsrc).trans ht, hend⟩

end Sys2Proof.Machine
end

section
/-! PROOF. The answer to a CLAIM (R29, R39, R49, R64 to R66): the record, the answer by the tests of R65, and the own claim
that yields. -/

namespace Sys2Proof.Machine

/-! ## Frames of some kinds in the list, while STATUS frames come and go -/

theorem filter_kind_replaceStatus {q : FrameKind → Bool} (hq : q .status = false) (p : StatusPayload) (l : List TxFrame) :
    (l.map (replaceStatus p)).filter (fun f => q f.frame.kind) = l.filter fun f => q f.frame.kind := by
  induction l with
  | nil => rfl
  | cons g gs ih =>
    rw [List.map_cons, List.filter_cons, List.filter_cons, replaceStatus_kind, ih]
    by_cases hg : g.frame.kind = .status
    · simp [hg, hq]
    · rw [replaceStatus_of_ne p g hg]

theorem filter_kind_insertFrame {q : FrameKind → Bool} {f : TxFrame} (hf : q f.frame.kind = false) (l : List TxFrame) :
    (insertFrame f l).filter (fun g => q g.frame.kind) = l.filter fun g => q g.frame.kind := by
  induction l with
  | nil => simp [insertFrame, hf]
  | cons g gs ih =>
    unfold insertFrame
    split
    · rw [List.filter_cons_of_neg (by simp [hf])]
    · rw [List.filter_cons, List.filter_cons, ih]

theorem filter_kind_removeKind {q : FrameKind → Bool} {k : FrameKind} (hk : q k = false) (l : List TxFrame) :
    (removeKind k l).filter (fun g => q g.frame.kind) = l.filter fun g => q g.frame.kind := by
  induction l with
  | nil => rfl
  | cons g gs ih =>
    unfold removeKind
    split
    · next hg => rw [List.filter_cons_of_neg (by simp [hg, hk])]
    · rw [List.filter_cons, List.filter_cons, ih]

theorem State.handStatus_filter {q : FrameKind → Bool} (hq : q .status = false) (s : State) :
    s.handStatus.mbi.list.filter (fun g => q g.frame.kind) = s.mbi.list.filter fun g => q g.frame.kind := by
  unfold State.handStatus State.queueFrame
  split
  · rfl
  · simp only [Mbi.handStatus, Mbi.putStatus, Mbi.join]
    split
    · rfl
    · split
      · exact filter_kind_replaceStatus hq _ _
      · exact filter_kind_insertFrame hq _

theorem State.changeConn_hasKind {k : FrameKind} (hk : k ≠ .status) (new : ConnState) (path : Path) (s : State) :
    hasKind k (s.changeConn new path).mbi.list = hasKind k s.mbi.list := by
  unfold State.changeConn
  split
  · rfl
  · exact State.handStatus_hasKind _ k hk

theorem State.changeConn_filter {q : FrameKind → Bool} (hq : q .status = false) (new : ConnState) (path : Path)
    (s : State) :
    (s.changeConn new path).mbi.list.filter (fun g => q g.frame.kind) = s.mbi.list.filter fun g => q g.frame.kind := by
  unfold State.changeConn
  split
  · rfl
  · exact State.handStatus_filter hq _

/-- A station with nothing on the line that accepts a frame keeps its list. -/
theorem State.accepting_list (src : StationId) {s : State} (htx : s.mbi.tx = .none) :
    (s.accepting src).mbi.list = s.mbi.list ∧ (s.accepting src).mbi.tx = .none := by
  have hnone := Mbi.loseArbitration_of_none (m := s.startMarkRead.mbi) (by simpa using htx)
  have hreceiving : s.receiving.mbi.list = s.mbi.list ∧ s.receiving.mbi.tx = .none := by
    simp [State.receiving, hnone, htx]
  rw [← hreceiving.1, ← hreceiving.2]
  unfold State.accepting State.acceptFrame
  simp only [State.countGood_frame]
  split
  · rw [State.takeClearance_of_not_path _ rfl]
    exact ⟨rfl, rfl⟩
  · exact ⟨rfl, rfl⟩

theorem removeKind_of_single {k : FrameKind} {l : List TxFrame}
    (h : (l.filter fun f => decide (f.frame.kind = k)).length = 1) : hasKind k (removeKind k l) = false := by
  induction l with
  | nil => simp at h
  | cons g gs ih =>
    unfold removeKind
    split
    · next hg =>
      simp only [List.filter_cons, hg, decide_true, if_true, List.length_cons, Nat.add_eq_right, List.length_eq_zero_iff,
        List.filter_eq_nil_iff, decide_eq_true_eq] at h
      rw [Bool.eq_false_iff, ne_eq, hasKind_iff]
      exact fun ⟨f, hf, hk⟩ => h f hf hk
    · next hg =>
      simp only [List.filter_cons, hg, decide_false, Bool.false_eq_true, if_false] at h
      rw [Bool.eq_false_iff, ne_eq, hasKind_iff]
      rintro ⟨f, hf, hk⟩
      rcases List.mem_cons.1 hf with rfl | hf
      · exact hg hk
      · exact absurd ((hasKind_iff _ _).2 ⟨f, hf, hk⟩) (by simp [ih h])

/-! ## The answer (R65) -/

/-- A CLAIM noted and answered, on the state in which the own claim has yielded (R39, R64). -/
def State.claimAnswered (src : StationId) (p : ClaimPayload) (s : State) : State :=
  (s.recordClaim src p).queueFrame (s.answerTo src p)

theorem State.recordHeldByOther_iff (id : StationId) (s : State) :
    s.recordHeldByOther id = true ↔ ∃ r, s.closure.record = some r ∧ r.holder ≠ id := by
  unfold State.recordHeldByOther
  cases s.closure.record <;> simp

theorem State.answerTo_isAnswer (src : StationId) (p : ClaimPayload) (s : State) :
    (s.answerTo src p).kind.isAnswer = true := by
  unfold State.answerTo
  dsimp only
  (repeat' split) <;> rfl

/-- An answer joins the list where fewer than four answers are pending (R12). -/
theorem State.queueFrame_answer_handed {f : Frame} {s : State} (hf : f.kind.isAnswer = true)
    (hroom : answersPending s.mbi.list < 4) : (s.queueFrame f).Handed f := by
  intro hb
  have hactive : s.mbi.bus = .active := by simpa using hb
  unfold State.queueFrame
  rw [if_neg (by simp [hactive])]
  cases f with
  | object p | assent p =>
    dsimp only
    rw [if_neg (by omega)]
    exact ⟨0, (mem_insertFrame _ _ _).2 (.inl rfl)⟩
  | status p | trip p | claim p | closed p | abandon p | release => simp [Frame.kind, FrameKind.isAnswer] at hf

/-- An answer touches the list and the events alone. -/
theorem State.queueFrame_answer_rest {f : Frame} (s : State) (hf : f.kind.isAnswer = true) :
    s.queueFrame f = { s with
      mbi := { s.mbi with list := (s.queueFrame f).mbi.list }
      port := { s.port with events := (s.queueFrame f).port.events } } := by
  unfold State.queueFrame
  split
  · rfl
  · cases f with
    | object p | assent p =>
      dsimp only
      split <;> rfl
    | status p | trip p | claim p | closed p | abandon p | release => simp [Frame.kind, FrameKind.isAnswer] at hf

theorem State.answerWindow_iff {voltage : Half} {s : State} {x : Sample} (hx : s.meas.sample = some x) :
    s.answerWindow voltage = true ↔ x.vbus.toNat < 5 * fieldNat s.config.deadBus
      ∨ ((voltage.toNat : Int) - x.vbus.toNat).natAbs ≤ 5 * fieldNat s.config.window := by
  have hlive := x.busLive_iff s.config
  have hwindow : s.config.windowCount = 5 * fieldNat s.config.window := Nat.mul_comm _ _
  simp only [State.answerWindow, hx, Bool.or_eq_true, Bool.not_eq_true', decide_eq_true_eq, voltageGap_eq, hwindow,
    ← Bool.not_eq_true, hlive, Nat.not_le]

/-- The tests of R65 in their order. -/
theorem State.answerTo_busy {src : StationId} {p : ClaimPayload} {s : State}
    (h : ∃ r, s.closure.record = some r ∧ r.holder ≠ src) : s.answerTo src p = .object ⟨src.setWidth 8, p.number, 1⟩ := by
  rw [State.answerTo, if_pos ((State.recordHeldByOther_iff _ _).2 h)]
  rfl

theorem State.answerTo_quiet {src : StationId} {p : ClaimPayload} {s : State}
    (h : ¬ ∃ r, s.closure.record = some r ∧ r.holder ≠ src) (hquiet : s.closure.quiet.isSome = true) :
    s.answerTo src p = .object ⟨src.setWidth 8, p.number, 2⟩ := by
  rw [State.answerTo, if_neg fun hh => h ((State.recordHeldByOther_iff _ _).1 hh), if_pos hquiet]
  rfl

theorem State.answerTo_window {src : StationId} {p : ClaimPayload} {s : State}
    (h : ¬ ∃ r, s.closure.record = some r ∧ r.holder ≠ src) (hquiet : s.closure.quiet = none) :
    s.answerTo src p = if s.answerWindow p.voltage then .assent ⟨src.setWidth 8, p.number⟩
      else .object ⟨src.setWidth 8, p.number, 3⟩ := by
  rw [State.answerTo, if_neg fun hh => h ((State.recordHeldByOther_iff _ _).1 hh), if_neg (by simp [hquiet])]
  rfl

/-- The answer that is handed over where there is room for it. -/
theorem State.claimAnswered_handed (src : StationId) (p : ClaimPayload) (s : State)
    (hroom : answersPending s.mbi.list < 4) : (s.claimAnswered src p).Handed (s.answerTo src p) := by
  refine State.queueFrame_answer_handed (State.answerTo_isAnswer _ _ _) ?_
  unfold State.recordClaim
  split <;> exact hroom

/-- The answer beside a record that the claimant may take, by the tests 2 and 3 of R65. -/
theorem State.claimAnswered_free {src : StationId} {p : ClaimPayload} {s : State}
    (h : ¬ ∃ r, s.closure.record = some r ∧ r.holder ≠ src) (hroom : answersPending s.mbi.list < 4) :
    (s.closure.quiet.isSome = true → (s.claimAnswered src p).Handed (.object ⟨src.setWidth 8, p.number, 2⟩))
      ∧ (s.closure.quiet = none → ∀ x, s.meas.sample = some x →
          (if x.vbus.toNat < 5 * fieldNat s.config.deadBus
              ∨ ((p.voltage.toNat : Int) - x.vbus.toNat).natAbs ≤ 5 * fieldNat s.config.window then
            (s.claimAnswered src p).Handed (.assent ⟨src.setWidth 8, p.number⟩)
          else (s.claimAnswered src p).Handed (.object ⟨src.setWidth 8, p.number, 3⟩)))
      ∧ (s.closure.quiet = none → s.meas.sample = none →
          (s.claimAnswered src p).Handed (.object ⟨src.setWidth 8, p.number, 3⟩)) := by
  have hhanded := State.claimAnswered_handed src p s hroom
  refine ⟨fun hquiet => ?_, fun hquiet x hx => ?_, fun hquiet hnone => ?_⟩
  · rwa [State.answerTo_quiet h hquiet] at hhanded
  · rw [State.answerTo_window h hquiet] at hhanded
    split
    · next hin => rwa [if_pos ((State.answerWindow_iff hx).2 hin)] at hhanded
    · next hout => rwa [if_neg fun hw => hout ((State.answerWindow_iff hx).1 hw)] at hhanded
  · rwa [State.answerTo_window h hquiet, if_neg (by simp [State.answerWindow, hnone])] at hhanded

theorem State.claimAnswered_closure (src : StationId) (p : ClaimPayload) (s : State) :
    (s.claimAnswered src p).closure = (s.recordClaim src p).closure := by simp [State.claimAnswered]

theorem State.recordClaim_busy {src : StationId} {p : ClaimPayload} {s : State}
    (h : ∃ r, s.closure.record = some r ∧ r.holder ≠ src) : s.recordClaim src p = s := by
  rw [State.recordClaim, if_pos ((State.recordHeldByOther_iff _ _).2 h)]

theorem State.recordClaim_free {src : StationId} {p : ClaimPayload} {s : State}
    (h : ¬ ∃ r, s.closure.record = some r ∧ r.holder ≠ src) :
    s.recordClaim src p = { s with closure := { s.closure with record := some ⟨src, p.number,
      some (claimTimeoutMs (p.timing.extractLsb' 4 4).toNat + settleMs (p.timing.extractLsb' 0 4).toNat + 100)⟩ } } := by
  rw [State.recordClaim, if_neg fun hh => h ((State.recordHeldByOther_iff _ _).1 hh)]
  rfl

@[simp] theorem State.claimAnswered_frame (src : StationId) (p : ClaimPayload) (s : State) :
    (s.claimAnswered src p).conn = s.conn ∧ (s.claimAnswered src p).switches = s.switches
      ∧ (s.claimAnswered src p).roster = s.roster
      ∧ (s.claimAnswered src p).closure.claim = s.closure.claim
      ∧ (s.claimAnswered src p).closure.lastOutcome = s.closure.lastOutcome
      ∧ (s.claimAnswered src p).closure.holdOff = s.closure.holdOff
      ∧ (s.claimAnswered src p).closure.quiet = s.closure.quiet
      ∧ (s.claimAnswered src p).closure.claimNumber = s.closure.claimNumber := by
  unfold State.claimAnswered State.recordClaim
  split <;> simp

/-- An answer brings no frame of another kind. -/
theorem State.claimAnswered_hasKind {k : FrameKind} (hk : k.isAnswer = false) (src : StationId) (p : ClaimPayload)
    (s : State) : hasKind k (s.claimAnswered src p).mbi.list = hasKind k s.mbi.list := by
  have hjoins (f : Frame) (hf : f.kind.isAnswer = true) (m : Mbi) : hasKind k (m.join f).list = hasKind k m.list := by
    have hne : f.kind ≠ k := fun h => by simp [h, hk] at hf
    simp [Mbi.join, hne]
  have hrecorded : (s.recordClaim src p).mbi = s.mbi := by
    unfold State.recordClaim
    split <;> rfl
  unfold State.claimAnswered State.queueFrame
  rw [hrecorded]
  split
  · rw [hrecorded]
  · have hanswer := State.answerTo_isAnswer src p s
    cases hf : s.answerTo src p with
    | object a | assent a =>
      dsimp only
      split
      · change hasKind k (s.recordClaim src p).mbi.list = _
        rw [hrecorded]
      · exact hjoins _ rfl _
    | status a | trip a | claim a | closed a | abandon a | release => simp [hf, Frame.kind, FrameKind.isAnswer] at hanswer

/-- The answer touches the record, the list and the events alone. -/
theorem State.claimAnswered_rest (src : StationId) (p : ClaimPayload) (s : State) :
    s.claimAnswered src p = { s with
      mbi := { s.mbi with list := (s.claimAnswered src p).mbi.list }
      closure := (s.claimAnswered src p).closure
      port := { s.port with events := (s.claimAnswered src p).port.events } } := by
  have hanswered := State.queueFrame_answer_rest (s.recordClaim src p) (State.answerTo_isAnswer src p s)
  have hrecorded : s.recordClaim src p = { s with closure := (s.recordClaim src p).closure } := by
    unfold State.recordClaim
    split <;> rfl
  have hclosure := State.claimAnswered_closure src p s
  rw [hclosure]
  unfold State.claimAnswered
  generalize (s.recordClaim src p).queueFrame (s.answerTo src p) = u at hanswered
  rw [hrecorded] at hanswered
  exact hanswered

theorem State.claimAnswered_stay (src : StationId) (p : ClaimPayload) (s : State) :
    s.EventsStay (s.claimAnswered src p) := by
  have hrecorded : s.EventsStay (s.recordClaim src p) := by
    unfold State.recordClaim
    split
    · exact .refl s
    · exact .of_events rfl
  exact hrecorded.trans (State.queueFrame_stay _ _)

/-! ## CLAIM_RECEIVED -/

/-- The state in which a CLAIM is answered, before the own claim yields: its number is noted (R29). -/
def State.claimNoted (src : StationId) (p : ClaimPayload) (s : State) : State :=
  (s.accepting src).rosterFrame src fun e => { e with lastClaim := some p.number }

theorem exec_claimReceived {src : StationId} {p : ClaimPayload} {s : State} (hhears : s.hears = true)
    (hsrc : src ≠ s.ownId) (hf : (Frame.claim p).refreshOnly = false) :
    exec (.claimReceived src p) s = conclude s ((s.claimNoted src p).yieldClaim.claimAnswered src p) := by
  rw [exec, execClaimReceived, accepted_known _ hhears hsrc hf]
  rfl

@[simp] theorem State.claimNoted_frame (src : StationId) (p : ClaimPayload) (s : State) :
    (s.claimNoted src p).ownId = s.ownId ∧ (s.claimNoted src p).config = s.config
      ∧ (s.claimNoted src p).closure = s.closure ∧ (s.claimNoted src p).meas = s.meas
      ∧ (s.claimNoted src p).conn.state = s.conn.state ∧ (s.claimNoted src p).mbi = (s.accepting src).mbi := by
  simp [State.claimNoted]

theorem State.claimNoted_entry (src : StationId) (p : ClaimPayload) (s : State) :
    ∃ e, rosterGet src (s.claimNoted src p).roster = some e ∧ e.lastClaim = some p.number :=
  ⟨_, State.rosterFrame_self _ _ _, rfl⟩

theorem State.yieldClaim_of_not_queued {s : State} (h : ∀ c, s.closure.claim = some c → c.phase ≠ .queued) :
    s.yieldClaim = s := by
  unfold State.yieldClaim
  cases hc : s.closure.claim with
  | none => rfl
  | some c =>
    cases hphase : c.phase with
    | queued => exact absurd hphase (h c hc)
    | awaiting ids timer => simp [hphase]

theorem State.yieldClaim_of_queued {s : State} {v : Half} (h : s.closure.claim = some ⟨v, .queued⟩) :
    s.yieldClaim = ((s.withdrawClaim .trip).endClaim .yielded).changeConn .isolated .none := by
  simp [State.yieldClaim, h]

/-- The state in which the own CLAIM, still queued, has yielded (R49). -/
def State.yielded (src : StationId) (p : ClaimPayload) (s : State) : State :=
  (({ s.claimNoted src p with mbi := { (s.accepting src).mbi with list := removeKind .claim s.mbi.list } } :
    State).endClaim .yielded).changeConn .isolated .none

theorem State.yielded_fields (src : StationId) (p : ClaimPayload) (s : State) :
    (s.yielded src p).closure.claim = none ∧ (s.yielded src p).closure.lastOutcome = .yielded
      ∧ (s.yielded src p).closure.holdOff = s.closure.holdOff
      ∧ (s.yielded src p).closure.claimNumber = s.closure.claimNumber
      ∧ (s.yielded src p).closure.quiet = s.closure.quiet ∧ (s.yielded src p).meas = s.meas
      ∧ (s.yielded src p).config = s.config ∧ (s.yielded src p).roster = (s.claimNoted src p).roster := by
  simp [State.yielded, State.endClaim]

theorem State.yielded_record {src : StationId} {p : ClaimPayload} {s : State} (hstate : s.conn.state = .claiming) :
    (s.yielded src p).closure.record = if s.ownRecord then none else s.closure.record := by
  rw [State.yielded, State.changeConn_record _ _ _ (by simp [hstate])]
  have hown : (({ s.claimNoted src p with mbi := { (s.accepting src).mbi with list := removeKind .claim s.mbi.list } } :
      State).endClaim .yielded).ownRecord = s.ownRecord := by
    simp [State.ownRecord, State.endClaim]
  rw [State.recordAfter, hown]
  simp [State.endClaim, hstate]

theorem State.ownRecord_iff (s : State) :
    s.ownRecord = true ↔ ∃ r, s.closure.record = some r ∧ r.holder = s.ownId := by
  unfold State.ownRecord
  cases s.closure.record <;> simp

/-- Settles O24: the two parts differ in `yieldClaim` alone. -/
theorem claimReceived : Obligations.ClaimReceived := by
  refine ⟨fun src p s hhears hsrc hf hphase => ?notQueued, fun src p v s hhears hsrc hf hstate hclaim htx hone => ?queued⟩
  case notQueued =>
    have hyield : (s.claimNoted src p).yieldClaim = s.claimNoted src p :=
      State.yieldClaim_of_not_queued (by simpa using hphase)
    have hexec := exec_claimReceived hhears hsrc hf
    rw [hyield] at hexec
    obtain ⟨t, ht, hend⟩ := conclude_end s ((s.claimNoted src p).claimAnswered src p)
    have hclosure : (s.claimNoted src p).closure = s.closure := by simp
    obtain ⟨e, he, hlast⟩ := State.claimNoted_entry src p s
    have hmeas : (s.claimNoted src p).meas = s.meas := by simp
    have hconfig : (s.claimNoted src p).config = s.config := by simp
    have hroster : ((s.claimNoted src p).claimAnswered src p).roster = (s.claimNoted src p).roster := by simp
    have hplaces (hroom : answersPending (s.accepting src).mbi.list < 4) :
        answersPending (s.claimNoted src p).mbi.list < 4 := by simpa using hroom
    refine ⟨_, t, hexec.trans ht, hend, ⟨e, by rw [hroster]; exact he, hlast⟩,
      ⟨fun hbusy => ⟨?busyRecord, fun hroom => ?busyAnswer⟩, fun hfree => ⟨?freeRecord, fun hroom => ?freeAnswer⟩⟩, ?rest⟩
    case busyRecord => rw [State.claimAnswered_closure, State.recordClaim_busy (by rwa [hclosure]), hclosure]
    case busyAnswer =>
      have hhanded := State.claimAnswered_handed src p (s.claimNoted src p) (hplaces hroom)
      rwa [State.answerTo_busy (by rwa [hclosure])] at hhanded
    case freeRecord =>
      rw [State.claimAnswered_closure, State.recordClaim_free (by rwa [hclosure])]
      dsimp only
      rw [hclosure]
    case freeAnswer =>
      have hanswer := State.claimAnswered_free (src := src) (p := p) (s := s.claimNoted src p) (by rwa [hclosure])
        (hplaces hroom)
      rwa [hclosure, hmeas, hconfig] at hanswer
    case rest =>
      have hanswered := State.claimAnswered_rest src p (s.claimNoted src p)
      have hnoted : s.claimNoted src p = { s.accepting src with
          roster := (s.claimNoted src p).roster
          port := { (s.accepting src).port with events := (s.claimNoted src p).port.events } } :=
        State.rosterFrame_rest _ _ _
      rw [hroster]
      generalize (s.claimNoted src p).claimAnswered src p = u at hanswered
      rw [hnoted] at hanswered
      exact hanswered
  case queued =>
    obtain ⟨hlist, htx'⟩ := State.accepting_list src htx
    have hclosure : (s.claimNoted src p).closure = s.closure := by simp
    have hyield := State.yieldClaim_of_queued (s := s.claimNoted src p) (v := v) (by simpa using hclaim)
    have hwithdrawn : (s.claimNoted src p).withdrawClaim .trip
        = { s.claimNoted src p with mbi := { (s.accepting src).mbi with list := removeKind .claim s.mbi.list } } := by
      have hmbi : (s.claimNoted src p).mbi = (s.accepting src).mbi := by simp
      rw [State.withdrawClaim, if_neg (by simp [Mbi.onLine, htx']), hmbi, hlist]
    obtain ⟨e, he, hlast⟩ := State.claimNoted_entry src p s
    have hyielded : (s.claimNoted src p).yieldClaim = s.yielded src p := by rw [hyield, hwithdrawn]; rfl
    have hexec := exec_claimReceived hhears hsrc hf
    rw [hyielded] at hexec
    have hentered : (s.yielded src p).Entered .isolated := State.changeConn_entered _ _ _ (by simp [hstate, State.endClaim])
    obtain ⟨hisolated, hevent, -, -, hopen⟩ := hentered
    have hnone : hasKind .claim (s.yielded src p).mbi.list = false := by
      rw [State.yielded, State.changeConn_hasKind (by decide)]
      exact removeKind_of_single hone
    have hbusy : (∃ r, (s.yielded src p).closure.record = some r ∧ r.holder ≠ src)
        ↔ ∃ r, s.closure.record = some r ∧ r.holder ≠ src ∧ r.holder ≠ s.ownId := by
      rw [State.yielded_record hstate]
      split
      · next ho =>
        obtain ⟨r, hr, hown⟩ := (State.ownRecord_iff s).1 ho
        simp [hr, hown]
      · next ho =>
        have hother (r : ClosureRecord) (hr : s.closure.record = some r) : r.holder ≠ s.ownId :=
          fun hown => ho ((State.ownRecord_iff s).2 ⟨r, hr, hown⟩)
        exact ⟨fun ⟨r, hr, h⟩ => ⟨r, hr, h, hother r hr⟩, fun ⟨r, hr, h, _⟩ => ⟨r, hr, h⟩⟩
    have hplaces (hroom : answersPending s.mbi.list < 4) : answersPending (s.yielded src p).mbi.list < 4 := by
      have hanswers : (s.yielded src p).mbi.list.filter (fun f => f.frame.kind.isAnswer)
          = s.mbi.list.filter fun f => f.frame.kind.isAnswer :=
        (State.changeConn_filter (q := FrameKind.isAnswer) rfl _ _ _).trans
          (filter_kind_removeKind (q := FrameKind.isAnswer) rfl _)
      rwa [answersPending, hanswers]
    obtain ⟨t, ht, hend⟩ := conclude_end s ((s.yielded src p).claimAnswered src p)
    have hfields := State.yielded_fields src p s
    obtain ⟨hended, houtcome, hholdOff, hnumber, hquiet, hmeas, hconfig, hroster⟩ := hfields
    refine ⟨_, t, hexec.trans ht, hend, by simpa using hisolated, by simpa using hended, by simpa using houtcome,
      by simpa using hholdOff, by rw [State.claimAnswered_hasKind rfl, hnone], State.claimAnswered_stay _ _ _ _ hevent,
      by simpa using hopen (by decide) (by decide), ⟨e, by simpa [hroster] using he, hlast⟩, by simpa using hnumber,
      by simpa using hquiet, fun hb => ⟨?busyKept, fun hroom => ?busyAnswered⟩,
      fun hfree => ⟨?freeTaken, fun hroom => ?freeAnswered⟩⟩
    case busyKept =>
      obtain ⟨r, hr, -, hother⟩ := id hb
      have hnotOwn : ¬ s.ownRecord = true := fun ho => by
        obtain ⟨r', hr', hown⟩ := (State.ownRecord_iff s).1 ho
        exact hother (Option.some.inj (hr.symm.trans hr') ▸ hown)
      rw [State.claimAnswered_closure, State.recordClaim_busy (hbusy.2 hb), State.yielded_record hstate, if_neg hnotOwn]
    case busyAnswered =>
      have hhanded := State.claimAnswered_handed src p (s.yielded src p) (hplaces hroom)
      rwa [State.answerTo_busy (hbusy.2 hb)] at hhanded
    case freeTaken =>
      rw [State.claimAnswered_closure, State.recordClaim_free (fun hb => hfree (hbusy.1 hb))]
    case freeAnswered =>
      have hanswer := State.claimAnswered_free (src := src) (p := p) (s := s.yielded src p)
        (fun hb => hfree (hbusy.1 hb)) (hplaces hroom)
      rwa [hquiet, hmeas, hconfig] at hanswer

end Sys2Proof.Machine
end

section
/-! PROOF. OBJECT and ASSENT for the own claim (R52 to R54, R56). -/

namespace Sys2Proof.Machine

theorem ObjectReason.ofCode_code (reason : ObjectReason) : ObjectReason.ofCode reason.code = some reason := by
  cases reason <;> rfl

/-- An answer with a station id as its target, and a known reason, is not refresh-only (R9). -/
theorem own_target_in_range (id : StationId) : (id.setWidth 8 : Byte).toNat ≤ 15 := by
  rw [BitVec.toNat_setWidth]
  omega

/-! ## The two rows -/

/-- What an OBJECT does beyond the refresh (R53, R56). -/
def State.objected (src : StationId) (p : ObjectPayload) (s : State) : State :=
  match s.awaitingFor p.target p.number, ObjectReason.ofCode p.reason with
  | some _, some reason => (s.queueAbandon .objected).failClaim (.objected src reason)
  | _, _ => s

/-- What an ASSENT does beyond the refresh (R52, R54, R56). -/
def State.assented (src : StationId) (p : AssentPayload) (s : State) : State :=
  match s.awaitingFor p.target p.number with
  | some (awaited, timer) => s.takeAssent src awaited timer
  | none => s

/-- The state in which an answer takes its effect: the sender's entry is refreshed. -/
def State.refreshed (src : StationId) (s : State) : State := (s.accepting src).rosterFrame src id

theorem exec_objectReceived (src : StationId) (p : ObjectPayload) {s : State} (hhears : s.hears = true)
    (hsrc : src ≠ s.ownId) :
    exec (.objectReceived src p) s = conclude s
      (if (Frame.object p).refreshOnly then s.refreshed src else (s.refreshed src).objected src p) := by
  rw [exec, execObjectReceived]
  split
  · next hf => rw [accepted_refreshOnly _ hhears hsrc hf]; rfl
  · next hf => rw [accepted_known _ hhears hsrc (by simpa using hf)]; rfl

theorem exec_assentReceived (src : StationId) (p : AssentPayload) {s : State} (hhears : s.hears = true)
    (hsrc : src ≠ s.ownId) :
    exec (.assentReceived src p) s = conclude s
      (if (Frame.assent p).refreshOnly then s.refreshed src else (s.refreshed src).assented src p) := by
  rw [exec, execAssentReceived]
  split
  · next hf => rw [accepted_refreshOnly _ hhears hsrc hf]; rfl
  · next hf => rw [accepted_known _ hhears hsrc (by simpa using hf)]; rfl

@[simp] theorem State.refreshed_frame (src : StationId) (s : State) :
    (s.refreshed src).ownId = s.ownId ∧ (s.refreshed src).config = s.config
      ∧ (s.refreshed src).closure = s.closure ∧ (s.refreshed src).meas = s.meas
      ∧ (s.refreshed src).conn.state = s.conn.state := by
  simp [State.refreshed]

theorem State.refreshed_rest (src : StationId) (s : State) :
    s.refreshed src = { s.accepting src with
      roster := (s.refreshed src).roster
      port := { (s.accepting src).port with events := (s.refreshed src).port.events } } :=
  State.rosterFrame_rest _ _ _

/-- The state after the refresh, with the Roster and the events of a later state. -/
def State.seenFrom (src : StationId) (s u : State) : State :=
  { s.accepting src with roster := u.roster, port := { (s.accepting src).port with events := u.port.events } }

theorem State.seenFrom_eq {src : StationId} {s u : State} (hroster : u.roster = (s.refreshed src).roster) :
    s.seenFrom src u
      = { s.refreshed src with port := { (s.refreshed src).port with events := u.port.events } } := by
  rw [State.seenFrom, hroster]
  conv_rhs => rw [State.refreshed_rest]

theorem TouchesConnectionOnly.of_events {s u : State} (h : TouchesConnectionOnly s u) (events : BitVec 14) :
    TouchesConnectionOnly { s with port := { s.port with events := events } } u := h

theorem ClosesOrAbandons.of_events {x : Sample} {s u : State} (h : ClosesOrAbandons x s u) (events : BitVec 14) :
    ClosesOrAbandons x { s with port := { s.port with events := events } } u := h

/-! ## Whom the answer is for (R52, R53, R56) -/

theorem State.awaitingFor_of_own {ids : List StationId} {timer : Nat} {v : Half} {s : State}
    (hclaim : s.closure.claim = some ⟨v, .awaiting ids timer⟩) :
    s.awaitingFor (s.ownId.setWidth 8) s.closure.claimNumber = some (ids, timer) := by
  simp [State.awaitingFor, hclaim]

theorem State.awaitingFor_of_not {target number : Byte} {s : State}
    (h : (∀ v ids timer, s.closure.claim ≠ some ⟨v, .awaiting ids timer⟩)
      ∨ target ≠ s.ownId.setWidth 8 ∨ number ≠ s.closure.claimNumber) : s.awaitingFor target number = none := by
  unfold State.awaitingFor
  cases hc : s.closure.claim with
  | none => rfl
  | some c =>
    obtain ⟨v, phase⟩ := c
    cases phase with
    | queued => rfl
    | awaiting ids timer =>
      rcases h with h | h | h
      · exact absurd hc (h v ids timer)
      · exact if_neg fun hh => h hh.1
      · exact if_neg fun hh => h hh.2

theorem State.objected_of_not {src : StationId} {p : ObjectPayload} {s : State}
    (h : s.awaitingFor p.target p.number = none) : s.objected src p = s := by
  simp only [State.objected, h]

theorem State.assented_of_not {src : StationId} {p : AssentPayload} {s : State}
    (h : s.awaitingFor p.target p.number = none) : s.assented src p = s := by
  simp only [State.assented, h]

/-- An answer that is not for a claim in phase AWAITING refreshes the Roster and no more. -/
theorem answers_refresh_only {src : StationId} {target number : Byte} {s : State} (hhears : s.hears = true)
    (hsrc : src ≠ s.ownId) (h : (s.refreshed src).awaitingFor target number = none) :
    exec (.assentReceived src ⟨target, number⟩) s = conclude s (s.refreshed src)
      ∧ ∀ reason, exec (.objectReceived src ⟨target, number, reason⟩) s = conclude s (s.refreshed src) := by
  constructor
  · rw [exec_assentReceived _ _ hhears hsrc, State.assented_of_not h, ite_self]
  · intro reason
    rw [exec_objectReceived _ _ hhears hsrc, State.objected_of_not h, ite_self]

/-! ## The answers for the own claim -/

section Awaiting

variable {src : StationId} {ids : List StationId} {timer : Nat} {v : Half} {s : State}

/-- The number and the target of the own claim find it waiting. -/
theorem refreshed_awaitingFor (hclaim : s.closure.claim = some ⟨v, .awaiting ids timer⟩) :
    (s.refreshed src).awaitingFor (s.ownId.setWidth 8) s.closure.claimNumber = some (ids, timer) := by
  have hown := State.awaitingFor_of_own (s := s.refreshed src) (by simpa using hclaim)
  simpa using hown

theorem exec_objectReceived_own (reason : ObjectReason) (hhears : s.hears = true) (hsrc : src ≠ s.ownId)
    (hclaim : s.closure.claim = some ⟨v, .awaiting ids timer⟩) :
    exec (.objectReceived src ⟨s.ownId.setWidth 8, s.closure.claimNumber, reason.code⟩) s
      = conclude s (((s.refreshed src).queueAbandon .objected).failClaim (.objected src reason)) := by
  have hrange := Nat.not_lt.2 (own_target_in_range s.ownId)
  have hknown : (Frame.object ⟨s.ownId.setWidth 8, s.closure.claimNumber, reason.code⟩).refreshOnly = false := by
    simp only [Frame.refreshOnly, ObjectReason.ofCode_code, hrange]
    rfl
  rw [exec_objectReceived _ _ hhears hsrc, hknown, if_neg (by simp), State.objected, refreshed_awaitingFor hclaim,
    ObjectReason.ofCode_code]

theorem exec_assentReceived_own (hhears : s.hears = true) (hsrc : src ≠ s.ownId)
    (hclaim : s.closure.claim = some ⟨v, .awaiting ids timer⟩) :
    exec (.assentReceived src ⟨s.ownId.setWidth 8, s.closure.claimNumber⟩) s
      = conclude s ((s.refreshed src).takeAssent src ids timer) := by
  have hrange := Nat.not_lt.2 (own_target_in_range s.ownId)
  have hknown : (Frame.assent ⟨s.ownId.setWidth 8, s.closure.claimNumber⟩).refreshOnly = false := by
    simp only [Frame.refreshOnly, hrange]
    rfl
  rw [exec_assentReceived _ _ hhears hsrc, hknown, if_neg (by simp), State.assented, refreshed_awaitingFor hclaim]

/-- An ASSENT that leaves others awaited takes its sender from the set (R52). -/
theorem takeAssent_more (hclaim : s.closure.claim = some ⟨v, .awaiting ids timer⟩) (hin : src ∈ ids)
    (hmore : ∃ id, id ∈ ids ∧ id ≠ src) :
    s.takeAssent src ids timer = { s with closure := { s.closure with
      claim := some ⟨v, .awaiting (ids.filter fun id => decide (id ≠ src)) timer⟩ } } := by
  have hleft : ids.filter (fun id => decide (id ≠ src)) ≠ [] := by
    obtain ⟨id, hid, hne⟩ := hmore
    exact List.ne_nil_of_mem (List.mem_filter.2 ⟨hid, by simpa using hne⟩)
  simp only [State.takeAssent, hin, if_true, hleft, if_false, hclaim, Option.map_some]

/-- The last one awaited leads to the window test (R54). -/
theorem takeAssent_last (hclaim : s.closure.claim = some ⟨v, .awaiting ids timer⟩) (hin : src ∈ ids)
    (hlast : ∀ id, id ∈ ids → id = src) :
    s.takeAssent src ids timer
      = State.windowTest { s with closure := { s.closure with claim := some ⟨v, .awaiting [] timer⟩ } } := by
  have hnone : ids.filter (fun id => decide (id ≠ src)) = [] := by
    rw [List.filter_eq_nil_iff]
    exact fun id hid => by simp [hlast id hid]
  simp only [State.takeAssent, hin, if_true, hnone, hclaim, Option.map_some]

/-- An OBJECT ends the own claim (R53). -/
theorem objected_fails (reason : ObjectReason) (hstate : s.conn.state = .claiming)
    (hrecord : s.closure.record = some ⟨s.ownId, s.closure.claimNumber, none⟩) :
    ((s.queueAbandon .objected).failClaim (.objected src reason)).ClaimFailed (.objected src reason)
      ∧ ((s.queueAbandon .objected).failClaim (.objected src reason)).Handed (.abandon ⟨s.closure.claimNumber, 1⟩)
      ∧ ((s.queueAbandon .objected).failClaim (.objected src reason)).closure.record = none
      ∧ TouchesConnectionOnly s ((s.queueAbandon .objected).failClaim (.objected src reason)) := by
  refine ⟨State.failClaim_failed _ _ (by simp [hstate]), ?_, ?_,
    (State.queueAbandon_touches _ _).trans (State.failClaim_touches _ _)⟩
  · exact State.failClaim_handed _ _ _ (by simp [Frame.kind]) (State.queueFrame_handed _ _ rfl)
  · exact State.failClaim_record _ _ (by simpa using hstate) _ (by simpa using hrecord) (by simp)

end Awaiting

/-- Settles O25: the answer for the own claim in its three outcomes, and every other answer. -/
theorem answersReceived : Obligations.AnswersReceived := by
  refine ⟨fun src ids timer v s hhears hsrc hstate hclaim hrecord => ?awaiting,
    fun src target number reason s hhears hsrc hno => ?others⟩
  case awaiting =>
    intro own w
    have hclosure : (s.refreshed src).closure = s.closure := by simp
    have hclaim' : (s.refreshed src).closure.claim = some ⟨v, .awaiting ids timer⟩ := by rw [hclosure]; exact hclaim
    have hstate' : (s.refreshed src).conn.state = .claiming := by simpa using hstate
    have hassent := exec_assentReceived_own (src := src) hhears hsrc hclaim
    have hothers {target number : Byte} (h : target ≠ own ∨ number ≠ s.closure.claimNumber) :
        (s.refreshed src).awaitingFor target number = none :=
      State.awaitingFor_of_not (.inr (by simpa using h))
    have hseen (u : State) (hroster : u.roster = (s.refreshed src).roster) :
        w u = { s.refreshed src with port := { (s.refreshed src).port with events := u.port.events } } :=
      State.seenFrom_eq hroster
    have htaken : ((s.refreshed src).takeAssent src ids timer).roster = (s.refreshed src).roster := by simp
    refine ⟨fun reason => ?object, fun hin hmore => ?assent, fun hin hlast x hx => ?last, fun target number h => ?stray,
      fun target number reason h => ?strayObject⟩
    case object =>
      obtain ⟨hfailed, hhanded, hcleared, htouches⟩ := objected_fails (src := src) (s := s.refreshed src) reason hstate'
        (by simpa using hrecord)
      obtain ⟨t, ht, hend⟩ := conclude_end s
        (((s.refreshed src).queueAbandon .objected).failClaim (.objected src reason))
      refine ⟨_, t, (exec_objectReceived_own reason hhears hsrc hclaim).trans ht, hend, hfailed, by rwa [hclosure] at hhanded,
        hcleared, ?_⟩
      have hroster : (((s.refreshed src).queueAbandon .objected).failClaim (.objected src reason)).roster
          = (s.refreshed src).roster := by simp
      rw [hseen _ hroster]
      exact htouches.of_events _
    case assent =>
      obtain ⟨t, ht, hend⟩ := conclude_end s ((s.refreshed src).takeAssent src ids timer)
      refine ⟨_, t, hassent.trans ht, hend, ?_⟩
      rw [hseen _ htaken, takeAssent_more hclaim' hin hmore, hclosure]
    case last =>
      obtain ⟨t, ht, hend⟩ := conclude_end s ((s.refreshed src).takeAssent src ids timer)
      refine ⟨_, t, hassent.trans ht, hend, ?_⟩
      have hcloses := State.windowTest_closesOrAbandons x
        { s.refreshed src with closure := { s.closure with claim := some ⟨v, .awaiting [] timer⟩ } } (by simpa using hx)
        hstate'
      rw [hseen _ htaken, takeAssent_last hclaim' hin hlast, hclosure]
      exact hcloses.of_events _
    case stray =>
      have hexec : exec (.assentReceived src ⟨target, number⟩) s = conclude s (s.refreshed src) := by
        by_cases hown : target = own ∧ number = s.closure.claimNumber
        · obtain ⟨rfl, rfl⟩ := hown
          have hout : src ∉ ids := by simpa using h
          rw [hassent, State.takeAssent, if_neg hout]
        · refine (answers_refresh_only hhears hsrc (hothers ?_)).1
          rw [← not_and_or]
          exact hown
      obtain ⟨t, ht, hend⟩ := conclude_end s (s.refreshed src)
      exact ⟨_, t, hexec.trans ht, hend, State.refreshed_rest src s⟩
    case strayObject =>
      obtain ⟨t, ht, hend⟩ := conclude_end s (s.refreshed src)
      exact ⟨_, t, ((answers_refresh_only hhears hsrc (hothers h)).2 reason).trans ht, hend, State.refreshed_rest src s⟩
  case others =>
    intro w
    have hnone := State.awaitingFor_of_not (target := target) (number := number) (s := s.refreshed src)
      (.inl (by simpa using hno))
    obtain ⟨hassent, hobject⟩ := answers_refresh_only hhears hsrc hnone
    obtain ⟨t, ht, hend⟩ := conclude_end s (s.refreshed src)
    exact ⟨⟨_, t, hassent.trans ht, hend, State.refreshed_rest src s⟩,
      ⟨_, t, (hobject reason).trans ht, hend, State.refreshed_rest src s⟩⟩

end Sys2Proof.Machine
end

section
/-! PROOF. The ends of SILENT (R16), the limits of a roster entry (R31, R32, R34), and the timers that end with one change (R33, R41, R55, R62, R63, R86, R92, R140). -/

namespace Sys2Proof.Machine

/-! ## The ends of SILENT (R16) -/

/-- The state in which the MBI has left SILENT, before BUS_SILENT is judged absent and the STATUS goes out. -/
def State.silenceOver (s : State) : State :=
  { s with mbi := { s.mbi with bus := .active, tec := 0, goodCount := 0, silenceTimer := none } }

theorem exec_silence_ends {c : Instr} {s : State} (hrun : s.power.phase = .run) (hbus : s.mbi.bus = .silent)
    (hmark : s.mbi.permanentSilence = false)
    (hc : c = .silentExitCount ∧ 16 ≤ s.mbi.goodCount ∨ c = .silenceTimerExpiry ∧ s.mbi.silenceTimer.isSome = true) :
    exec c s = conclude s s.leaveSilent := by
  rcases hc with ⟨rfl, hcount⟩ | ⟨rfl, htimer⟩
  · rw [exec, execSilentExitCount, inRun_of_run _ _ hrun, if_pos ⟨hbus, hmark, hcount⟩]
  · rw [exec, execSilenceTimerExpiry, inRun_of_run _ _ hrun, if_pos ⟨hbus, hmark, htimer⟩]

/-- Settles O27: `leaveSilent` is a clearance of BUS_SILENT and a STATUS, and the mark bars both rows. -/
theorem silenceEnds : Obligations.SilenceEnds := by
  refine ⟨fun c s hrun hbus hmark hc => ?ends, fun s hmark => ?barred⟩
  case ends =>
    obtain ⟨t, ht, hend⟩ := conclude_end s s.leaveSilent
    refine ⟨_, t, (exec_silence_ends hrun hbus hmark hc).trans ht, hend, ?_⟩
    have hcleared := State.takeClearance_of_not_path (src := .busSilent) s.silenceOver rfl
    have hleave : s.leaveSilent = (s.silenceOver.takeClearance .busSilent).handStatus := rfl
    have hregister : s.leaveSilent.fault.register.busSilent
        = if s.fault.register.busSilent.state = .held then ⟨.lapsed, false, none⟩
          else { s.fault.register.busSilent with present := false } := by
      rw [hleave, show (s.silenceOver.takeClearance .busSilent).handStatus.fault
        = (s.silenceOver.takeClearance .busSilent).fault by simp, hcleared]
      rfl
    have heq := State.handStatus_eq (s.silenceOver.takeClearance .busSilent)
    rw [hregister]
    refine ⟨?bus, ?tec, ?count, ?timer, State.handStatus_handed _, ?absent, fun hactive => ?active,
      fun hheld => if_pos hheld, ?rest⟩
    case bus => rw [hleave, heq, hcleared]; rfl
    case tec => rw [hleave, heq, hcleared]; rfl
    case count => rw [hleave, heq, hcleared]; rfl
    case timer => rw [hleave, heq, hcleared]; rfl
    case absent => split <;> rfl
    case active => rw [if_neg (by simp [hactive])]; exact hactive
    case rest =>
      rw [hleave]
      conv_lhs => rw [heq, hcleared]
      rw [show (s.silenceOver.takeClearance .busSilent).handStatus.fault.register
        = (s.silenceOver.takeClearance .busSilent).fault.register by simp, hcleared]
      rfl
  case barred =>
    constructor
    · rw [exec, execSilentExitCount]
      unfold inRun
      simp [hmark]
    · rw [exec, execSilenceTimerExpiry]
      unfold inRun
      simp [hmark]

/-! ## The limits of a roster entry (R31, R32, R34) -/

theorem rosterGet_rosterClear (id other : StationId) (r : List RosterSlot) :
    rosterGet other (rosterClear id r) = if other = id then none else rosterGet other r := by
  unfold rosterClear
  induction r with
  | nil => simp [rosterGet]
  | cons x xs ih =>
    by_cases hx : x.id = id
    · rw [List.filter_cons_of_neg (by simp [hx]), ih]
      split
      · rfl
      · next hne => rw [rosterGet, if_neg fun h => hne (h.symm.trans hx)]
    · rw [List.filter_cons_of_pos (by simp [hx]), rosterGet, rosterGet, ih]
      by_cases ho : other = id
      · rw [if_neg fun h => hx (h.trans ho), if_pos ho, if_pos ho]
      · rw [if_neg ho, if_neg ho]

/-- Settles O28: the two rows by their definitions, and the moment at which each comes due by `mem_rosterDue`. -/
theorem rosterLimits : Obligations.RosterLimits := by
  refine ⟨fun id e s hrun hbus he => ?rows, fun id s hrun hnone hnodup => ?due, fun e => ?limits⟩
  case rows =>
    intro period aged
    have hperiod : e.periodMs = period := by
      dsimp only [period]
      unfold RosterEntry.periodMs
      cases e.status <;> rfl
    refine ⟨fun hpresent => ?stale, fun hstale => ?empty⟩
    case stale =>
      have hexec : exec (.rosterStaleLimit id) s
          = conclude s (({ s with roster := rosterSet id aged s.roster } : State).setEvent .peerStale) := by
        rw [exec, execRosterStaleLimit, inRun_of_run _ _ hrun]
        simp only [he]
        rw [if_pos ⟨hpresent, hbus⟩, hperiod]
        rfl
      rw [hexec]
      exact conclude_end s _
    case empty =>
      have hexec : exec (.rosterEmptyLimit id) s = conclude s
          ((({ s with roster := rosterClear id s.roster } : State).setEvent .peerLost).clearRecordOf id) := by
        rw [exec, execRosterEmptyLimit, inRun_of_run _ _ hrun]
        simp only [he]
        rw [if_pos ⟨hstale, hbus⟩]
      obtain ⟨t, ht, hend⟩ := conclude_end s
        ((({ s with roster := rosterClear id s.roster } : State).setEvent .peerLost).clearRecordOf id)
      refine ⟨_, t, hexec.trans ht, hend, ?_⟩
      rw [State.clearRecordOf_eq]
      refine ⟨?gone, fun other hne => ?other, State.hasEvent_setEvent_self .peerLost { s with
        roster := rosterClear id s.roster }, rfl⟩
      case gone => exact (rosterGet_rosterClear id id s.roster).trans (if_pos rfl)
      case other => exact (rosterGet_rosterClear id other s.roster).trans (if_neg hne)
  case due =>
    have hslot (e : RosterEntry) := rosterGet_eq_some_iff id e s.roster hnodup
    have hstale : Instr.rosterStaleLimit id ∈ s.candidates ↔
        ∃ e, rosterGet id s.roster = some e ∧ e.state = .present ∧ e.staleLimit ≤ e.age := by
      rw [State.candidates_run s hrun hnone, State.mem_dueInRun, mem_rosterDue]
      simp only [reduceCtorEq, false_and, or_false, false_or, Instr.rosterStaleLimit.injEq, hslot]
      constructor
      · rintro ⟨⟨_, e⟩, hmem, rfl, hlimit⟩
        exact ⟨e, hmem, hlimit⟩
      · rintro ⟨e, hmem, hlimit⟩
        exact ⟨_, hmem, rfl, hlimit⟩
    have hempty : Instr.rosterEmptyLimit id ∈ s.candidates ↔
        ∃ e, rosterGet id s.roster = some e ∧ e.state = .stale ∧ e.emptyLimit ≤ e.age := by
      rw [State.candidates_run s hrun hnone, State.mem_dueInRun, mem_rosterDue]
      simp only [reduceCtorEq, false_and, false_or, Instr.rosterEmptyLimit.injEq, hslot]
      constructor
      · rintro ⟨⟨_, e⟩, hmem, rfl, hlimit⟩
        exact ⟨e, hmem, hlimit⟩
      · rintro ⟨e, hmem, hlimit⟩
        exact ⟨_, hmem, rfl, hlimit⟩
    refine ⟨hstale, hempty, fun h => ?neither⟩
    case neither =>
      rw [hstale, hempty]
      rcases h with h | h
      · simp [h]
      · obtain ⟨e, he, hasleep⟩ := Option.map_eq_some_iff.1 h
        simp [he, hasleep]
  case limits =>
    refine ⟨fun h => by simp [RosterEntry.staleLimit, RosterEntry.emptyLimit, h], fun p h => ?_⟩
    refine ⟨fun hp => ?_, fun hp => ?_, fun hp => ?_, fun hp => ?_⟩ <;>
      simp [RosterEntry.staleLimit, RosterEntry.emptyLimit, h, hp]

/-! ## Timers that end with one change (R41, R62, R63, R86, R92, R140) -/

theorem exec_recordExpiry {r : ClosureRecord} {s : State} (hrun : s.power.phase = .run)
    (hrecord : s.closure.record = some r) (hexpiry : r.expiry.isSome = true) :
    exec .recordExpiry s = conclude s { s with closure := { s.closure with record := none } } := by
  rw [exec, execRecordExpiry, inRun_of_run _ _ hrun]
  simp only [hrecord, hexpiry, if_true]

theorem exec_holdOffExpiry {s : State} (hrun : s.power.phase = .run) (h : s.closure.holdOff.isSome = true) :
    exec .holdOffExpiry s = conclude s { s with closure := { s.closure with holdOff := none } } := by
  rw [exec, execHoldOffExpiry, inRun_of_run _ _ hrun, if_pos h]

theorem exec_quietPeriodExpiry {s : State} (hrun : s.power.phase = .run) (h : s.closure.quiet.isSome = true) :
    exec .quietPeriodExpiry s = conclude s { s with closure := { s.closure with quiet := none } } := by
  rw [exec, execQuietPeriodExpiry, inRun_of_run _ _ hrun, if_pos h]

/-- Settles O29: one row after the other. -/
theorem plainTimers : Obligations.PlainTimers := by
  intro s hrun
  refine ⟨fun r hrecord hexpiry => ?record, fun h => ?holdOff, fun h => ?quiet, fun h => ?lockout,
    fun hstate h => ?release, fun h => ?status⟩
  case record => rw [exec_recordExpiry hrun hrecord hexpiry]; exact conclude_end s _
  case holdOff => rw [exec_holdOffExpiry hrun h]; exact conclude_end s _
  case quiet => rw [exec_quietPeriodExpiry hrun h]; exact conclude_end s _
  case lockout => rw [exec, execLockoutWindowExpiry, inRun_of_run _ _ hrun, if_pos h]
  case release =>
    have hexec : exec .releaseTimerExpiry s = conclude s (s.changeConn .detached .none) := by
      rw [exec, execReleaseTimerExpiry, inRun_of_run _ _ hrun, if_pos ⟨hstate, h⟩]
    have hne : s.conn.state ≠ .detached := by simp [hstate]
    have hrecord : (s.changeConn .detached .none).closure.record = s.closure.record := by
      rw [State.changeConn_record _ _ _ hne, State.recordAfter, if_neg (by simp [hstate])]
    obtain ⟨t, ht, hend⟩ := conclude_end s (s.changeConn .detached .none)
    refine ⟨_, t, hexec.trans ht, hend, State.changeConn_entered _ _ _ hne, ?stopped, ?closure, by simp,
      State.changeConn_touches _ _ _⟩
    case stopped => unfold State.changeConn; rw [if_neg hne]; simp
    case closure =>
      have hkept : (s.changeConn .detached .none).closure
          = { s.closure with record := (s.changeConn .detached .none).closure.record } := by
        unfold State.changeConn
        rw [if_neg hne]
        simp
      rw [hkept, hrecord]
  case status =>
    have hexec : exec .statusTimerExpiry s = conclude s s.startStatusTimer.handStatus := by
      rw [exec, execStatusTimerExpiry, inRun_of_run _ _ hrun, if_pos h]
    obtain ⟨t, ht, hend⟩ := conclude_end s s.startStatusTimer.handStatus
    have hstart : s.startStatusTimer = { s with conn := { s.conn with
        statusTimer := s.startStatusTimer.conn.statusTimer } } := by
      unfold State.startStatusTimer
      split <;> rfl
    refine ⟨_, t, hexec.trans ht, hend, State.handStatus_handed _, fun hcommitted => ?timer, ?rest⟩
    case timer =>
      rw [State.handStatus_eq]
      unfold State.startStatusTimer
      rw [if_pos hcommitted]
    case rest =>
      rw [show s.startStatusTimer.handStatus.conn = s.startStatusTimer.conn by simp]
      refine (State.handStatus_eq _).trans ?_
      rw [hstart]

/-! ## The claim timeout (R33, R55) -/

theorem rosterGet_markSlot (ids : List StationId) (id : StationId) (r : List RosterSlot) :
    rosterGet id (r.map (markSlot ids))
      = (rosterGet id r).map fun e => if id ∈ ids then { e with state := .stale } else e := by
  induction r with
  | nil => rfl
  | cons x xs ih =>
    have hid : (markSlot ids x).id = x.id := by unfold markSlot; split <;> rfl
    rw [List.map_cons, rosterGet, rosterGet, hid, ih]
    by_cases hx : x.id = id
    · rw [if_pos hx, if_pos hx]
      unfold markSlot
      rw [hx]
      split <;> rfl
    · rw [if_neg hx, if_neg hx]

theorem State.markStale_roster (ids : List StationId) (s : State) :
    (s.markStale ids).roster = s.roster.map (markSlot ids) := by
  unfold State.markStale
  dsimp only
  split <;> rfl

theorem mem_of_rosterGet {id : StationId} {e : RosterEntry} {r : List RosterSlot} (h : rosterGet id r = some e) :
    (⟨id, e⟩ : RosterSlot) ∈ r := by
  induction r with
  | nil => simp [rosterGet] at h
  | cons x xs ih =>
    rw [rosterGet] at h
    split at h
    · next hx =>
      obtain rfl := Option.some.inj h
      rw [← hx]
      exact List.mem_cons_self
    · exact List.mem_cons_of_mem _ (ih h)

theorem State.markStale_event {ids : List StationId} {s : State}
    (h : ∃ id e, id ∈ ids ∧ rosterGet id s.roster = some e ∧ e.state ≠ .stale) :
    (s.markStale ids).hasEvent .peerStale = true := by
  obtain ⟨id, e, hid, he, hstate⟩ := h
  have hmarks : (s.roster.any fun x => decide (x.id ∈ ids) && decide (x.entry.state ≠ .stale)) = true :=
    List.any_eq_true.2 ⟨_, mem_of_rosterGet he, by simp [hid, hstate]⟩
  unfold State.markStale
  dsimp only
  rw [if_pos hmarks]
  exact State.hasEvent_setEvent_self .peerStale s

/-- The mark touches the Roster and the events alone. -/
theorem State.markStale_rest (ids : List StationId) (s : State) :
    s.markStale ids = { s with
      roster := (s.markStale ids).roster, port := { s.port with events := (s.markStale ids).port.events } } := by
  unfold State.markStale
  dsimp only
  split <;> rfl

/-- Settles O30: the mark, then a claim that fails. -/
theorem claimTimeout : Obligations.ClaimTimeout := by
  intro ids timer v s hrun hstate hclaim hrecord
  have hexec : exec .claimTimerExpiry s
      = conclude s (((s.markStale ids).queueAbandon .noAnswer).failClaim .noAnswer) := by
    rw [exec, execClaimTimerExpiry, inRun_of_run _ _ hrun]
    simp only [hclaim]
  have hmarked : (s.markStale ids).closure = s.closure ∧ (s.markStale ids).conn.state = .claiming
      ∧ (s.markStale ids).ownId = s.ownId := by simp [hstate]
  obtain ⟨hclosure, hmstate, hown⟩ := hmarked
  have hroster : (((s.markStale ids).queueAbandon .noAnswer).failClaim .noAnswer).roster
      = s.roster.map (markSlot ids) := by
    rw [← State.markStale_roster]
    simp
  have htouches : TouchesConnectionOnly (s.markStale ids)
      (((s.markStale ids).queueAbandon .noAnswer).failClaim .noAnswer) :=
    (State.queueAbandon_touches _ _).trans (State.failClaim_touches _ _)
  obtain ⟨t, ht, hend⟩ := conclude_end s (((s.markStale ids).queueAbandon .noAnswer).failClaim .noAnswer)
  refine ⟨_, t, hexec.trans ht, hend, State.failClaim_failed _ _ (by simp [hstate]), ?handed, ?record,
    fun id e he => ?marked, fun h => ?event, ?touches⟩
  case handed =>
    rw [← hclosure]
    exact State.failClaim_handed _ _ (.abandon ⟨(s.markStale ids).closure.claimNumber, 2⟩) nofun
      (State.queueFrame_handed _ _ rfl)
  case record =>
    exact State.failClaim_record _ _ (by simpa using hmstate) ⟨s.ownId, s.closure.claimNumber, none⟩
      (by simpa using hrecord) (by simp)
  case marked =>
    rw [hroster, rosterGet_markSlot, he]
    rfl
  case event =>
    have hstay : (s.markStale ids).EventsStay (((s.markStale ids).queueAbandon .noAnswer).failClaim .noAnswer) :=
      (State.queueFrame_stay _ _).trans fun e he =>
        State.changeConn_hasEvent _ _ _ _ (State.hasEvent_setEvent_of_has _ _ _ he)
    exact hstay _ (State.markStale_event h)
  case touches =>
    rw [hroster, ← State.markStale_roster]
    generalize ((s.markStale ids).queueAbandon .noAnswer).failClaim .noAnswer = u at htouches
    rw [State.markStale_rest] at htouches
    exact htouches

end Sys2Proof.Machine
end

section
/-! PROOF. The removal of the closing hold (R132, R134), and the settle end (R44, R79, R80). -/

namespace Sys2Proof.Machine

/-! ## One postponed over-current trip -/

/-- What one postponed over-current trip leaves: its source ACTIVE and no other touched, a trip taken and counted, its
record the last of the history. -/
def State.TakesPostponed (oc : Source) (s u : State) : Prop :=
  u.fault.register = s.fault.register.set oc { s.fault.register.get oc with state := .active }
    ∧ u.fault.closingHold = s.fault.closingHold ∧ u.HasTripped ∧ u.conn.sleepPending = false
    ∧ u.fault.tripCounter = min 65535 (s.fault.tripCounter + 1)
    ∧ u.conn.state = (if s.conn.state = .lockout then .lockout else .tripped)
    ∧ ∃ r : TripRecord, u.fault.history = appendTrip s.fault.history r
      ∧ r.code = .of oc ∧ r.source = oc ∧ r.scope = .localOnly
      ∧ r.value = (s.fault.register.get oc).value.getD 0

theorem State.postponedOverCurrent_takes {oc : Source} {s : State} (hoc : oc = .ocDsg ∨ oc = .ocChg)
    (h : (s.fault.register.get oc).state = .held ∧ s.isHeld oc = false) :
    s.TakesPostponed oc (s.postponedOverCurrent oc) := by
  obtain ⟨r, ⟨hcode, hsource, hscope, hvalue, -⟩, hfault, hstate, hsleep, -⟩ :=
    State.postponedOverCurrent_trips oc s h.1 h.2 hoc
  have htripped : (s.postponedOverCurrent oc).HasTripped := by
    rw [State.postponedOverCurrent_eq oc s h.1 h.2 hoc]
    exact State.tripCore_hasTripped _ _
  refine ⟨by rw [hfault], by rw [hfault], htripped, hsleep, by rw [hfault], hstate, r, by rw [hfault], hcode, hsource,
    hscope, hvalue⟩

/-- A postponed trip that stands in the last record stands behind one more. -/
theorem State.TakesPostponed.stays {oc other : Source} {s w : State} (h : s.TakesPostponed oc w) (hne : oc ≠ other)
    (hother : other = .ocDsg ∨ other = .ocChg) : s.TripsPostponed oc (w.postponedOverCurrent other) := by
  obtain ⟨hregister, -, htripped, hsleep, -, -, r, hhistory, hr⟩ := h
  obtain ⟨earlier, -, hlast⟩ := appendTrip_eq s.fault.history r
  have hget : w.fault.register.get oc = { s.fault.register.get oc with state := .active } := by
    rw [hregister, FaultRegister.get_set_self]
  by_cases hw : (w.fault.register.get other).state = .held ∧ w.isHeld other = false
  · obtain ⟨hregister', -, htripped', hsleep', -, -, r', hhistory', -⟩ := State.postponedOverCurrent_takes hother hw
    refine ⟨?_, htripped', hsleep', r, ?_, hr⟩
    · rw [hregister', FaultRegister.get_set_of_ne _ _ _ _ hne, hget]
    · obtain ⟨e, -, he⟩ := appendTrip_keeps earlier [] r r' (by simp)
      rw [hhistory', hhistory, hlast, he]
      simp
  · rw [State.postponedOverCurrent_of_not other w hw]
    exact ⟨hget, htripped, hsleep, r, by simp [hhistory, hlast], hr⟩

theorem State.TakesPostponed.trips {oc : Source} {s u : State} (h : s.TakesPostponed oc u) : s.TripsPostponed oc u := by
  obtain ⟨hregister, -, htripped, hsleep, -, -, r, hhistory, hr⟩ := h
  obtain ⟨earlier, -, hlast⟩ := appendTrip_eq s.fault.history r
  exact ⟨by rw [hregister, FaultRegister.get_set_self], htripped, hsleep, r, by simp [hhistory, hlast], hr⟩

/-! ## The removal of the closing hold -/

section Lifting

variable {s : State}

/-- The state with the closing hold gone, before any postponed action. -/
def State.unheld (s : State) : State := { s with fault := { s.fault with closingHold := false } }

theorem State.liftClosingHold_eq (s : State) :
    s.liftClosingHold = if s.fault.closingHold = true then
      (s.unheld.postponedOverCurrent .ocDsg).postponedOverCurrent .ocChg else s := rfl

/-- OC_DSG waits for the removal exactly if its postponed action follows. -/
theorem State.waits_ocDsg_iff (hhold : s.fault.closingHold = true) : s.WaitsForClosingHold .ocDsg ↔
    (s.unheld.fault.register.get .ocDsg).state = .held ∧ s.unheld.isHeld .ocDsg = false :=
  State.waits_iff .ocDsg (.inl rfl) s hhold s.unheld rfl rfl rfl

/-- OC_CHG is judged behind the action of OC_DSG, which does not touch it. -/
theorem State.waits_ocChg_iff (hhold : s.fault.closingHold = true) : s.WaitsForClosingHold .ocChg ↔
    ((s.unheld.postponedOverCurrent .ocDsg).fault.register.get .ocChg).state = .held
      ∧ (s.unheld.postponedOverCurrent .ocDsg).isHeld .ocChg = false := by
  by_cases hdsg : s.WaitsForClosingHold .ocDsg
  · obtain ⟨hregister, hclosing, -⟩ := State.postponedOverCurrent_takes (.inl rfl) ((State.waits_ocDsg_iff hhold).1 hdsg)
    refine State.waits_iff .ocChg (.inr rfl) s hhold _ ?_ (by simp [State.unheld]) (by rw [hclosing]; rfl)
    rw [hregister, FaultRegister.get_set_of_ne _ _ _ _ (by decide)]
    rfl
  · rw [State.postponedOverCurrent_of_not _ _ fun h => hdsg ((State.waits_ocDsg_iff hhold).2 h)]
    exact State.waits_iff .ocChg (.inr rfl) s hhold s.unheld rfl rfl rfl

theorem State.liftClosingHold_of_none (h : ∀ oc, ¬ s.WaitsForClosingHold oc) : s.liftClosingHold = s.unheld := by
  rw [State.liftClosingHold_eq]
  split
  · next hhold =>
    have hdsg := State.postponedOverCurrent_of_not _ _ fun hw => h _ ((State.waits_ocDsg_iff hhold).2 hw)
    have hchg := State.postponedOverCurrent_of_not _ _ fun hw => h _ ((State.waits_ocChg_iff hhold).2 hw)
    rw [hchg, hdsg]
  · next hhold =>
    have hoff : s.fault.closingHold = false := by simpa using hhold
    unfold State.unheld
    rw [← hoff]

/-- Each source that waits has its postponed action (R132). -/
theorem State.liftClosingHold_trips {oc : Source} (h : s.WaitsForClosingHold oc) :
    s.TripsPostponed oc s.liftClosingHold := by
  obtain ⟨hoc, hhold, -⟩ := id h
  rw [State.liftClosingHold_eq, if_pos hhold]
  rcases hoc with rfl | rfl
  · exact (State.postponedOverCurrent_takes (.inl rfl) ((State.waits_ocDsg_iff hhold).1 h)).stays (s := s.unheld)
      (by decide) (.inr rfl)
  · have htrips := (State.postponedOverCurrent_takes (.inr rfl) ((State.waits_ocChg_iff hhold).1 h)).trips
    have hget : (s.unheld.postponedOverCurrent .ocDsg).fault.register.get .ocChg = s.fault.register.get .ocChg := by
      by_cases hdsg : s.WaitsForClosingHold .ocDsg
      · obtain ⟨hregister, -⟩ := State.postponedOverCurrent_takes (.inl rfl) ((State.waits_ocDsg_iff hhold).1 hdsg)
        rw [hregister, FaultRegister.get_set_of_ne _ _ _ _ (by decide)]
        rfl
      · rw [State.postponedOverCurrent_of_not _ _ fun hw => hdsg ((State.waits_ocDsg_iff hhold).2 hw)]
        rfl
    unfold State.TripsPostponed at htrips ⊢
    rwa [hget] at htrips

/-- What every postponed action keeps, the removal of the closing hold keeps. -/
theorem State.liftClosingHold_induction {P : State → Prop} (hunheld : P s.unheld)
    (hstep : ∀ oc w, (oc = .ocDsg ∨ oc = .ocChg) → w.TakesPostponed oc (w.postponedOverCurrent oc) → P w →
      P (w.postponedOverCurrent oc)) : s.fault.closingHold = true → P s.liftClosingHold := by
  intro hhold
  have hone (oc : Source) (hoc : oc = .ocDsg ∨ oc = .ocChg) (w : State) (hw : P w) : P (w.postponedOverCurrent oc) := by
    by_cases hwaits : (w.fault.register.get oc).state = .held ∧ w.isHeld oc = false
    · exact hstep oc w hoc (State.postponedOverCurrent_takes hoc hwaits) hw
    · rwa [State.postponedOverCurrent_of_not oc w hwaits]
  rw [State.liftClosingHold_eq, if_pos hhold]
  exact hone _ (.inr rfl) _ (hone _ (.inl rfl) _ hunheld)

theorem State.liftClosingHold_closingHold (s : State) : s.liftClosingHold.fault.closingHold = false := by
  cases hhold : s.fault.closingHold
  · simp [State.liftClosingHold_eq, hhold]
  · refine State.liftClosingHold_induction (P := fun u => u.fault.closingHold = false) rfl (fun oc w _ ht hw => ?_) hhold
    obtain ⟨-, hclosing, -⟩ := ht
    rw [hclosing]
    exact hw

theorem State.liftClosingHold_history (s : State) :
    s.fault.history.length ≤ s.liftClosingHold.fault.history.length := by
  cases hhold : s.fault.closingHold
  · simp [State.liftClosingHold_eq, hhold]
  · refine State.liftClosingHold_induction
      (P := fun u => s.fault.history.length ≤ u.fault.history.length) (le_refl _) (fun oc w _ ht hw => ?_) hhold
    obtain ⟨-, -, -, -, -, -, r, hhistory, -⟩ := ht
    rw [hhistory, appendTrip_length_eq]
    omega

/-- A source that does not wait is as it was. -/
theorem State.liftClosingHold_other {other : Source} (h : ¬ s.WaitsForClosingHold other) :
    s.liftClosingHold.fault.register.get other = s.fault.register.get other := by
  by_cases hhold : s.fault.closingHold = true
  · have hdsg : (s.unheld.postponedOverCurrent .ocDsg).fault.register.get other = s.fault.register.get other := by
      by_cases hw : s.WaitsForClosingHold .ocDsg
      · obtain ⟨hregister, -⟩ := State.postponedOverCurrent_takes (.inl rfl) ((State.waits_ocDsg_iff hhold).1 hw)
        have hne : other ≠ .ocDsg := by rintro rfl; exact h hw
        rw [hregister, FaultRegister.get_set_of_ne _ _ _ _ hne]
        rfl
      · rw [State.postponedOverCurrent_of_not _ _ fun hh => hw ((State.waits_ocDsg_iff hhold).2 hh)]
        rfl
    rw [State.liftClosingHold_eq, if_pos hhold]
    by_cases hw : s.WaitsForClosingHold .ocChg
    · obtain ⟨hregister, -⟩ := State.postponedOverCurrent_takes (.inr rfl) ((State.waits_ocChg_iff hhold).1 hw)
      have hne : other ≠ .ocChg := by rintro rfl; exact h hw
      rw [hregister, FaultRegister.get_set_of_ne _ _ _ _ hne, hdsg]
    · rw [State.postponedOverCurrent_of_not _ _ fun hh => hw ((State.waits_ocChg_iff hhold).2 hh), hdsg]
  · rw [State.liftClosingHold_eq, if_neg hhold]

/-- The removal that a source waits for counts a trip (R143). -/
theorem State.liftClosingHold_counts {oc : Source} (h : s.WaitsForClosingHold oc) (hmax : s.fault.tripCounter < 65535) :
    s.fault.tripCounter < s.liftClosingHold.fault.tripCounter := by
  obtain ⟨hoc, hhold, -⟩ := id h
  rw [State.liftClosingHold_eq, if_pos hhold]
  have hcount {other : Source} (ho : other = .ocDsg ∨ other = .ocChg) (w : State) :
      w.fault.tripCounter ≤ 65535 → w.fault.tripCounter ≤ (w.postponedOverCurrent other).fault.tripCounter := by
    intro hle
    by_cases hw : (w.fault.register.get other).state = .held ∧ w.isHeld other = false
    · obtain ⟨-, -, -, -, hcounter, -⟩ := State.postponedOverCurrent_takes ho hw
      omega
    · rw [State.postponedOverCurrent_of_not other w hw]
  have hstart : s.unheld.fault.tripCounter = s.fault.tripCounter := rfl
  rcases hoc with rfl | rfl
  · obtain ⟨-, -, -, -, hcounter, -⟩ := State.postponedOverCurrent_takes (.inl rfl) ((State.waits_ocDsg_iff hhold).1 h)
    have hnext := hcount (.inr rfl) (s.unheld.postponedOverCurrent .ocDsg)
    omega
  · obtain ⟨-, -, -, -, hcounter, -⟩ := State.postponedOverCurrent_takes (.inr rfl) ((State.waits_ocChg_iff hhold).1 h)
    have hfirst := hcount (.inl rfl) s.unheld (by omega)
    omega

/-- Outside LOCKOUT the station that trips at the removal is TRIPPED. -/
theorem State.liftClosingHold_tripped {oc : Source} (h : s.WaitsForClosingHold oc) (hstate : s.conn.state ≠ .lockout) :
    s.liftClosingHold.conn.state = .tripped := by
  obtain ⟨⟨hor, -⟩, hhold⟩ : s.liftClosingHold.HasTripped ∧ s.fault.closingHold = true :=
    ⟨(State.liftClosingHold_trips h).2.1, h.2.1⟩
  refine hor.resolve_right ?_
  refine State.liftClosingHold_induction (P := fun u => u.conn.state ≠ .lockout) hstate (fun oc w _ ht hw => ?_) hhold
  obtain ⟨-, -, -, -, -, htripped, -⟩ := ht
  rw [htripped, if_neg hw]
  decide

end Lifting

/-! ## The list of the MBI while trips are taken -/

theorem filter_kind_mergeTrip {q : FrameKind → Bool} (hq : q .trip = false) (p : TripPayload) (l : List TxFrame) :
    (l.map (mergeTrip p)).filter (fun f => q f.frame.kind) = l.filter fun f => q f.frame.kind := by
  induction l with
  | nil => rfl
  | cons g gs ih =>
    rw [List.map_cons, List.filter_cons, List.filter_cons, mergeTrip_kind, ih]
    by_cases hg : g.frame.kind = .trip
    · simp [hg, hq]
    · rw [mergeTrip_of_ne p g hg]

/-- The frames of some kinds in the list are the same in two states. -/
def State.SameFrames (q : FrameKind → Bool) (s u : State) : Prop :=
  u.mbi.list.filter (fun g => q g.frame.kind) = s.mbi.list.filter fun g => q g.frame.kind

theorem State.SameFrames.pends {q : FrameKind → Bool} {f : Frame} {s u : State} (h : s.SameFrames q u)
    (hf : q f.kind = true) (hs : s.Pends f) : u.Pends f := by
  obtain ⟨n, hn⟩ := hs
  have hmem : (⟨f, n⟩ : TxFrame) ∈ u.mbi.list.filter fun g => q g.frame.kind := by
    rw [h]
    exact List.mem_filter.2 ⟨hn, hf⟩
  exact ⟨n, (List.mem_filter.1 hmem).1⟩

section Trips

variable {q : FrameKind → Bool}

theorem State.queueFrame_trip_sameFrames (hq : q .trip = false) (p : TripPayload) (s : State) :
    s.SameFrames q (s.queueFrame (.trip p)) := by
  unfold State.SameFrames
  rw [State.queueFrame_trip_mbi]
  split
  · rfl
  · unfold Mbi.handTrip Mbi.putTrip Mbi.join
    split
    · rfl
    · split
      · exact filter_kind_mergeTrip hq _ _
      · exact filter_kind_insertFrame (f := ⟨.trip p, 0⟩) hq _

theorem State.abortClaim_sameFrames (hq : q .claim = false) (o : ClaimOutcome) (s : State) :
    s.SameFrames q (s.abortClaim o) := by
  unfold State.SameFrames State.abortClaim
  split
  · rfl
  · split
    · unfold State.withdrawClaim
      split
      · rfl
      · exact filter_kind_removeKind hq _
    · rfl

theorem State.cancelSleep_sameFrames (hq : q .status = false) (s : State) : s.SameFrames q s.cancelSleep := by
  unfold State.SameFrames State.cancelSleep
  split
  · exact State.handStatus_filter hq _
  · rfl

theorem State.tripCore_sameFrames (hq : q .status = false ∧ q .trip = false ∧ q .claim = false) (d : TripCause)
    (s : State) : s.SameFrames q (s.tripCore d) := by
  obtain ⟨hstatus, htrip, hclaim⟩ := hq
  have hall (new : ConnState) (p : TripPayload) : s.SameFrames q
      ((((s.openSwitches.recordTrip d s.conn.state).queueFrame (.trip p)).abortClaim .tripped).changeConn new .none) := by
    refine (State.changeConn_filter hstatus _ _ _).trans ((State.abortClaim_sameFrames hclaim _ _).trans ?_)
    exact State.queueFrame_trip_sameFrames htrip _ _
  unfold State.tripCore
  dsimp only
  split <;> exact hall _ _

theorem State.setSource_sameFrames (src : Source) (x : SourceRecord) (hq : q .status = false) (s : State) :
    s.SameFrames q (s.setSource src x) := by
  unfold State.setSource
  dsimp only
  split
  · exact State.handStatus_filter hq _
  · rfl

theorem State.postponedOverCurrent_sameFrames (hq : q .status = false ∧ q .trip = false ∧ q .claim = false)
    (src : Source) (s : State) : s.SameFrames q (s.postponedOverCurrent src) := by
  unfold State.postponedOverCurrent
  dsimp only
  split
  · exact (State.tripCore_sameFrames hq _ _).trans ((State.cancelSleep_sameFrames hq.1 _).trans
      (State.setSource_sameFrames _ _ hq.1 _))
  · rfl

theorem State.liftClosingHold_sameFrames (hq : q .status = false ∧ q .trip = false ∧ q .claim = false) (s : State) :
    s.SameFrames q s.liftClosingHold := by
  unfold State.liftClosingHold
  split
  · exact (State.postponedOverCurrent_sameFrames hq _ _).trans (State.postponedOverCurrent_sameFrames hq _ _)
  · rfl

end Trips

/-! ## The settle end -/

theorem exec_settleEnd {s : State} (hrun : s.power.phase = .run) (hstate : s.conn.state = .closing)
    (hsettle : s.conn.settle.isSome = true) :
    exec .settleEnd s = conclude s (if s.liftClosingHold.conn.state = .closing then s.liftClosingHold.finishClosing
      else s.liftClosingHold) := by
  rw [exec, execSettleEnd, inRun_of_run _ _ hrun, if_pos ⟨hstate, hsettle⟩]

/-- The switches through a change into CONNECTED, and the timer that stops. -/
theorem State.changeConn_connected {path : Path} {s : State} (h : s.conn.state ≠ .connected) :
    (s.changeConn .connected path).switches = s.switches ∧ (s.changeConn .connected path).conn.settle = none := by
  unfold State.changeConn
  rw [if_neg h]
  simp

theorem all_not_closed_iff (l : List TxFrame) :
    l.all (fun f => decide (f.frame.kind ≠ .closed)) = true ↔ l.filter (fun f => decide (f.frame.kind = .closed)) = [] := by
  simp [List.filter_eq_nil_iff]

/-- Settles O31: with no source waiting `finishClosing`, else the trips of `liftClosingHold`. -/
theorem settleEnd : Obligations.SettleEnd := by
  intro s hrun hstate hsettle
  refine ⟨fun hnone => ?connected, fun oc hwaits => ?trips⟩
  case connected =>
    have hexec : exec .settleEnd s = conclude s s.unheld.finishClosing := by
      rw [exec_settleEnd hrun hstate hsettle, State.liftClosingHold_of_none hnone]
      exact congrArg _ (if_pos hstate)
    have hne : s.unheld.conn.state ≠ .connected := by
      rw [show s.unheld.conn = s.conn from rfl, hstate]
      decide
    have hqueued : (s.unheld.queueFrame (.closed ⟨s.closure.claimNumber,
        (s.meas.sample.map (·.vbus)).getD 0⟩)).conn.state ≠ .connected := by simpa using hne
    obtain ⟨hswitches, hstopped⟩ := State.changeConn_connected (path := s.unheld.sourcePath) hqueued
    obtain ⟨t, ht, hend⟩ := conclude_end s s.unheld.finishClosing
    refine ⟨_, t, hexec.trans ht, hend, State.changeConn_entered _ _ _ hqueued, ?handed, ?path, ?switches, hstopped,
      fun r hr hown => ?record, ?fault, ?touches⟩
    case handed => exact State.changeConn_handed _ _ _ _ (by simp [Frame.kind]) (State.queueFrame_handed _ _ rfl)
    case path =>
      exact (State.changeConn_path _ _ hqueued).trans s.unheld.sourcePath_eq
    case switches => exact hswitches.trans (by simp [State.unheld])
    case record =>
      refine (State.changeConn_record _ _ _ hqueued).trans ?_
      simp [State.recordAfter, State.unheld, State.ownRecord, hstate, hr, hown]
    case fault =>
      have hkept : s.unheld.finishClosing.fault = s.unheld.fault := by simp [State.finishClosing]
      exact hkept
    case touches =>
      have hunheld : TouchesConnectionOnly s s.unheld := rfl
      exact hunheld.trans ((State.queueFrame_touches _ _ (by simp [Frame.kind])).trans (State.changeConn_touches _ _ _))
  case trips =>
    have htripped := State.liftClosingHold_tripped hwaits (by simp [hstate])
    have hexec : exec .settleEnd s = conclude s s.liftClosingHold := by
      rw [exec_settleEnd hrun hstate hsettle, if_neg (by simp [htripped])]
    obtain ⟨t, ht, hend⟩ := conclude_end s s.liftClosingHold
    refine ⟨_, t, hexec.trans ht, hend, State.liftClosingHold_trips hwaits, State.liftClosingHold_closingHold s,
      State.liftClosingHold_history s, State.liftClosingHold_counts hwaits,
      fun other _ hno => State.liftClosingHold_other hno, fun hclosed => ?closed, State.liftClosingHold_keeps s⟩
    case closed =>
      rw [all_not_closed_iff] at hclosed ⊢
      rw [← hclosed]
      exact State.liftClosingHold_sameFrames (q := fun k => decide (k = .closed)) ⟨rfl, rfl, rfl⟩ s

end Sys2Proof.Machine
end

section
/-! PROOF. What accepting a frame leaves (R8, R16, R17), and the TRIP with scope BUS (R43, R63, R88, R89, R148, R149). -/

namespace Sys2Proof.Machine

/-! ## Accepting a frame -/

/-- Accepting touches three counts of the MBI and the register. -/
theorem State.acceptFrame_eq (src : StationId) (s : State) :
    s.acceptFrame src = { s with
      mbi := { s.mbi with
        recCount := s.mbi.recCount - 1
        rejectMuted := s.mbi.rejectMuted && decide (96 ≤ s.mbi.recCount - 1)
        goodCount := if s.mbi.bus = .silent ∧ s.mbi.permanentSilence = false then
            (if src = s.ownId then 0 else min 16 (s.mbi.goodCount + 1))
          else s.mbi.goodCount }
      fault := { s.fault with register := (s.acceptFrame src).fault.register } } := by
  unfold State.acceptFrame
  dsimp only
  by_cases hmuted : s.mbi.rejectMuted = true ∧ s.mbi.recCount - 1 < 96
  · rw [if_pos hmuted, State.takeClearance_of_not_path _ rfl]
    have hlow : ¬ 96 ≤ s.mbi.recCount - 1 := by omega
    unfold State.countGood
    simp only [hmuted.1, hlow, decide_false, Bool.and_false]
    split <;> rfl
  · rw [if_neg hmuted]
    have hkept : (s.mbi.rejectMuted && decide (96 ≤ s.mbi.recCount - 1)) = s.mbi.rejectMuted := by
      cases hm : s.mbi.rejectMuted
      · rfl
      · simp [hm] at hmuted
        simp [hmuted]
    unfold State.countGood
    simp only [hkept]
    split <;> rfl

/-- Only RX_DEGRADED of the register can change. -/
theorem State.acceptFrame_register {src : StationId} {other : Source} (h : other ≠ .rxDegraded) (s : State) :
    (s.acceptFrame src).fault.register.get other = s.fault.register.get other := by
  unfold State.acceptFrame
  dsimp only
  simp only [State.countGood_frame]
  split
  · rw [State.takeClearance_register_other _ h]
  · rfl

/-- The state in which an accepted frame takes effect, by what the connection and the Fault Unit hold. -/
theorem State.refreshed_kept (src : StationId) (s : State) :
    (s.refreshed src).conn = s.conn ∧ (s.refreshed src).switches = s.switches
      ∧ (s.refreshed src).fault = { s.fault with register := (s.refreshed src).fault.register }
      ∧ ∀ other : Source, other ≠ .rxDegraded →
          (s.refreshed src).fault.register.get other = s.fault.register.get other := by
  have hframe : (s.refreshed src).conn = (s.accepting src).conn ∧ (s.refreshed src).switches = (s.accepting src).switches
      ∧ (s.refreshed src).fault = (s.accepting src).fault := by simp [State.refreshed]
  obtain ⟨hconn, hswitches, hfault⟩ := hframe
  have heq := s.receiving.acceptFrame_eq src
  refine ⟨hconn.trans ?_, hswitches.trans ?_, ?_, fun other hne => ?_⟩
  · rw [State.accepting, heq]
    simp
  · rw [State.accepting, heq]
    simp
  · rw [hfault, State.accepting, heq]
    simp
  · rw [hfault, State.accepting, State.acceptFrame_register hne]
    simp

/-! ## A TRIP with scope BUS -/

theorem exec_tripReceived_bus {src : StationId} {p : TripPayload} {s : State} (hhears : s.hears = true)
    (hsrc : src ≠ s.ownId) (hf : (Frame.trip p).refreshOnly = false) (hscope : p.scope = 1) :
    exec (.tripReceived src p) s = conclude s (s.refreshed src).followBusTrip := by
  rw [exec, execTripReceived, accepted_known _ hhears hsrc hf, if_pos (by rw [hscope]; rfl)]
  rfl

theorem State.changeConn_no_record {s : State} (new : ConnState) (path : Path) (h : s.closure.record = none) :
    (s.changeConn new path).closure.record = none := by
  unfold State.changeConn
  split
  · exact h
  · simp [State.recordAfter, h]

theorem State.changeConn_quiet (new : ConnState) (path : Path) (s : State) :
    (s.changeConn new path).closure.quiet = s.closure.quiet := by
  unfold State.changeConn
  split
  · rfl
  · simp

theorem State.abortClaim_record_quiet (o : ClaimOutcome) (s : State) :
    (s.abortClaim o).closure.record = s.closure.record ∧ (s.abortClaim o).closure.quiet = s.closure.quiet := by
  unfold State.abortClaim
  split
  · exact ⟨rfl, rfl⟩
  · split <;> simp [State.endClaim]

/-- A trip of this station leaves an empty record empty, and without scope BUS the quiet period as it is. -/
theorem State.tripCore_no_record (d : TripCause) {s : State} (h : s.closure.record = none) :
    (s.tripCore d).closure.record = none := by
  have hrecord (u : State) (hu : u.closure = s.closure) : (u.abortClaim .tripped).closure.record = none := by
    rw [(State.abortClaim_record_quiet _ _).1, hu, h]
  unfold State.tripCore
  dsimp only
  split
  · rfl
  · exact State.changeConn_no_record _ _ (hrecord _ (by simp [State.openSwitches, State.recordTrip]))

theorem State.postponedOverCurrent_record_quiet {oc : Source} (hoc : oc = .ocDsg ∨ oc = .ocChg) {s : State}
    (h : s.closure.record = none) : (s.postponedOverCurrent oc).closure.record = none
      ∧ (s.postponedOverCurrent oc).closure.quiet = s.closure.quiet := by
  by_cases hw : (s.fault.register.get oc).state = .held ∧ s.isHeld oc = false
  · rw [State.postponedOverCurrent_eq oc s hw.1 hw.2 hoc]
    refine ⟨State.tripCore_no_record _ (by simpa using h), ((State.tripCore_busTrip _ _).2 rfl).trans (by simp)⟩
  · rw [State.postponedOverCurrent_of_not oc s hw]
    exact ⟨h, rfl⟩

theorem State.liftClosingHold_record_quiet {s : State} (h : s.closure.record = none) :
    s.liftClosingHold.closure.record = none ∧ s.liftClosingHold.closure.quiet = s.closure.quiet := by
  rw [State.liftClosingHold_eq]
  split
  · obtain ⟨hrecord, hquiet⟩ := State.postponedOverCurrent_record_quiet (oc := .ocDsg) (.inl rfl) (s := s.unheld) h
    obtain ⟨hrecord', hquiet'⟩ := State.postponedOverCurrent_record_quiet (oc := .ocChg) (.inr rfl) hrecord
    exact ⟨hrecord', hquiet'.trans hquiet⟩
  · exact ⟨h, rfl⟩

/-- A connection state stays entered while an event is set. -/
theorem State.Entered.setEvent {new : ConnState} {u : State} (h : u.Entered new) (e : Event) :
    (u.setEvent e).Entered new := by
  obtain ⟨hstate, hevent, hhanded, hrest⟩ := h
  exact ⟨hstate, State.hasEvent_setEvent_of_has _ _ _ hevent, State.setEvent_handed hhanded, hrest⟩

/-- The station leaves CLOSING or CONNECTED for ISOLATED behind a followed TRIP. -/
def State.openedByBusTrip (s : State) : State :=
  (s.takeBusTrip.openSwitches.changeConn .isolated .none).setEvent .busTripFollowed

section FollowBusTrip

variable {s : State}

/-- What following a TRIP with scope BUS does, by the connection state. -/
theorem State.followBusTrip_claiming (h : s.conn.state = .claiming) : s.followBusTrip
    = ((s.takeBusTrip.abortClaim .busTrip).changeConn .isolated .none).setEvent .busTripFollowed := by
  have hstate : s.takeBusTrip.conn.state = .claiming := by simpa using h
  simp only [State.followBusTrip, hstate]

theorem State.followBusTrip_closing (h : s.conn.state = .closing) :
    s.followBusTrip = s.openedByBusTrip.liftClosingHold := by
  have hstate : s.takeBusTrip.conn.state = .closing := by simpa using h
  simp only [State.followBusTrip, hstate, State.openedByBusTrip]

theorem State.followBusTrip_connected (h : s.conn.state = .connected) : s.followBusTrip = s.openedByBusTrip := by
  have hstate : s.takeBusTrip.conn.state = .connected := by simpa using h
  simp only [State.followBusTrip, hstate, State.openedByBusTrip]

theorem State.followBusTrip_releasing (h : s.conn.state = .releasing) :
    s.followBusTrip = s.takeBusTrip.setEvent .busTripFollowed := by
  have hstate : s.takeBusTrip.conn.state = .releasing := by simpa using h
  simp only [State.followBusTrip, hstate]

theorem State.followBusTrip_other (h : s.conn.state = .detached ∨ s.conn.state = .isolated ∨ s.conn.state = .tripped
    ∨ s.conn.state = .lockout) : s.followBusTrip = s.takeBusTrip := by
  have hstate : s.takeBusTrip.conn.state = s.conn.state := by simp
  rcases h with h | h | h | h <;> simp only [State.followBusTrip, hstate, h]

theorem State.openedByBusTrip_kept (s : State) : s.openedByBusTrip.closure.record = none
    ∧ s.openedByBusTrip.closure.quiet = some 1000 ∧ s.openedByBusTrip.fault = s.fault
    ∧ s.openedByBusTrip.conn.state = .isolated ∧ s.openedByBusTrip.hasEvent .busTripFollowed = true := by
  refine ⟨State.changeConn_no_record _ _ rfl, State.changeConn_quiet _ _ _, ?_, ?_, State.hasEvent_setEvent_self _ _⟩
  · simp [State.openedByBusTrip]
  · simp [State.openedByBusTrip]

theorem State.openedByBusTrip_waits (oc : Source) (s : State) :
    s.openedByBusTrip.WaitsForClosingHold oc ↔ s.WaitsForClosingHold oc := by
  obtain ⟨-, -, hfault, -⟩ := s.openedByBusTrip_kept
  unfold State.WaitsForClosingHold
  rw [hfault]

theorem State.openedByBusTrip_entered (h : s.conn.state ≠ .isolated) : s.openedByBusTrip.Entered .isolated :=
  (State.changeConn_entered _ _ _ (by simpa using h)).setEvent _

/-- The record, the quiet period and the Fault Unit but for the closing hold, where no source waits for its removal. -/
theorem State.followBusTrip_always (h : s.conn.state = .closing → ∀ oc, ¬ s.WaitsForClosingHold oc) :
    s.followBusTrip.closure.record = none ∧ s.followBusTrip.closure.quiet = some 1000
      ∧ s.followBusTrip.fault = { s.fault with closingHold := s.followBusTrip.fault.closingHold } := by
  obtain ⟨hrecord, hquiet, hfault, -⟩ := s.openedByBusTrip_kept
  cases hstate : s.conn.state with
  | claiming =>
    rw [State.followBusTrip_claiming hstate]
    obtain ⟨hrecord, hquiet⟩ := State.abortClaim_record_quiet .busTrip s.takeBusTrip
    exact ⟨State.changeConn_no_record _ _ hrecord, (State.changeConn_quiet _ _ _).trans hquiet, by simp⟩
  | closing =>
    rw [State.followBusTrip_closing hstate, State.liftClosingHold_of_none
      fun oc hw => h hstate oc ((State.openedByBusTrip_waits oc s).1 hw)]
    exact ⟨hrecord, hquiet, by simp [State.unheld, hfault]⟩
  | connected => rw [State.followBusTrip_connected hstate]; exact ⟨hrecord, hquiet, by rw [hfault]⟩
  | releasing => rw [State.followBusTrip_releasing hstate]; exact ⟨rfl, rfl, rfl⟩
  | detached => rw [State.followBusTrip_other (.inl hstate)]; exact ⟨rfl, rfl, rfl⟩
  | isolated => rw [State.followBusTrip_other (.inr (.inl hstate))]; exact ⟨rfl, rfl, rfl⟩
  | tripped => rw [State.followBusTrip_other (.inr (.inr (.inl hstate)))]; exact ⟨rfl, rfl, rfl⟩
  | lockout => rw [State.followBusTrip_other (.inr (.inr (.inr hstate)))]; exact ⟨rfl, rfl, rfl⟩

/-- In CLAIMING, CLOSING and CONNECTED the station goes to ISOLATED. -/
theorem State.followBusTrip_opens (h : s.conn.state = .claiming ∨ s.conn.state = .closing ∨ s.conn.state = .connected)
    (hnone : s.conn.state = .closing → ∀ oc, ¬ s.WaitsForClosingHold oc) :
    s.followBusTrip.Entered .isolated ∧ s.followBusTrip.hasEvent .busTripFollowed = true := by
  obtain ⟨-, -, -, -, hevent⟩ := s.openedByBusTrip_kept
  rcases h with h | h | h
  · rw [State.followBusTrip_claiming h]
    refine ⟨(State.changeConn_entered _ _ _ ?_).setEvent _, State.hasEvent_setEvent_self _ _⟩
    simp [h]
  · rw [State.followBusTrip_closing h, State.liftClosingHold_of_none
      fun oc hw => hnone h oc ((State.openedByBusTrip_waits oc s).1 hw)]
    exact ⟨State.openedByBusTrip_entered (by simp [h]), hevent⟩
  · rw [State.followBusTrip_connected h]
    exact ⟨State.openedByBusTrip_entered (by simp [h]), hevent⟩

end FollowBusTrip

/-- Settles O23: `followBusTrip` by connection state; in CLOSING the removal of the closing hold comes last. -/
theorem busTripReceived : Obligations.BusTripReceived := by
  refine ⟨fun src p s hhears hsrc hf hscope hnone => ?followed, fun src p oc s hhears hsrc hf hscope hstate hwaits => ?trips⟩
  case followed =>
    obtain ⟨hconn, hswitches, hfault, hregister⟩ := s.refreshed_kept src
    have hclosure : (s.refreshed src).closure = s.closure := by simp
    have hwaits (oc : Source) (hw : (s.refreshed src).WaitsForClosingHold oc) : s.WaitsForClosingHold oc := by
      obtain ⟨hoc, hhold, hheld, hport⟩ := hw
      have hne : oc ≠ .rxDegraded := by rcases hoc with rfl | rfl <;> decide
      exact ⟨hoc, by rw [hfault] at hhold; exact hhold, by rw [← hregister oc hne]; exact hheld,
        by rw [hfault] at hport; exact hport⟩
    have hnone' (hclosing : (s.refreshed src).conn.state = .closing) (oc : Source) :
        ¬ (s.refreshed src).WaitsForClosingHold oc := fun hw => hnone (by rw [← hconn]; exact hclosing) oc (hwaits oc hw)
    obtain ⟨hrecord, hquiet, hfault'⟩ := State.followBusTrip_always hnone'
    obtain ⟨t, ht, hend⟩ := conclude_end s (s.refreshed src).followBusTrip
    refine ⟨_, t, (exec_tripReceived_bus hhears hsrc hf hscope).trans ht, hend, hrecord, hquiet, by simp, by simp,
      ?counter, ?history, ?lockout, ?joined, fun h => State.followBusTrip_opens (by rwa [hconn]) hnone',
      fun h => ?claiming, fun h => ?closing, fun oc hoc => ?register, fun h => ?releasing, fun h => ?others⟩
    case counter => rw [hfault', hfault]
    case history => rw [hfault', hfault]
    case lockout => rw [hfault', hfault]
    case joined => simp [hconn]
    case claiming =>
      rw [State.followBusTrip_claiming (by rwa [hconn])]
      refine ⟨by simp, fun hsome => ?_⟩
      have houtcome := State.abortClaim_lastOutcome .busTrip (s.refreshed src).takeBusTrip (by simpa using hsome)
      simpa using houtcome
    case closing =>
      rw [State.followBusTrip_closing (by rwa [hconn])]
      exact State.liftClosingHold_closingHold _
    case register =>
      have hne : oc ≠ .rxDegraded := by rcases hoc with rfl | rfl <;> decide
      rw [hfault']
      exact hregister oc hne
    case releasing =>
      rw [State.followBusTrip_releasing (by rwa [hconn])]
      exact ⟨hconn, State.hasEvent_setEvent_self _ _⟩
    case others =>
      rw [State.followBusTrip_other (by rwa [hconn])]
      exact ⟨hconn, hswitches⟩
  case trips =>
    obtain ⟨hconn, -, hfault, hregister⟩ := s.refreshed_kept src
    have hstate' : (s.refreshed src).conn.state = .closing := by rwa [hconn]
    have hopened := (s.refreshed src).openedByBusTrip_kept
    generalize hw : (s.refreshed src).openedByBusTrip = w at hopened
    obtain ⟨hrecord, hquiet, hfaultw, hisolated, hevent⟩ := hopened
    have hget {other : Source} (h : other = .ocDsg ∨ other = .ocChg) :
        w.fault.register.get other = s.fault.register.get other := by
      rw [hfaultw]
      exact hregister other (by rcases h with rfl | rfl <;> decide)
    have hkept : w.fault.closingHold = s.fault.closingHold ∧ w.fault.portHolds = s.fault.portHolds
        ∧ w.fault.tripCounter = s.fault.tripCounter := by
      rw [hfaultw, hfault]
      exact ⟨rfl, rfl, rfl⟩
    obtain ⟨hclosing, hports, hcounter⟩ := hkept
    have hwaitsw : w.WaitsForClosingHold oc := by
      obtain ⟨hoc, hhold, hheld, hport⟩ := hwaits
      exact ⟨hoc, by rw [hclosing]; exact hhold, by rw [hget hoc]; exact hheld, by rw [hports]; exact hport⟩
    obtain ⟨hrecord', hquiet'⟩ := State.liftClosingHold_record_quiet hrecord
    obtain ⟨t, ht, hend⟩ := conclude_end s w.liftClosingHold
    have hexec : exec (.tripReceived src p) s = conclude s w.liftClosingHold := by
      rw [exec_tripReceived_bus hhears hsrc hf hscope, State.followBusTrip_closing hstate', hw]
    refine ⟨_, t, hexec.trans ht, hend, ?postponed, State.liftClosingHold_tripped hwaitsw (by simp [hisolated]),
      State.liftClosingHold_stay _ _ hevent, State.liftClosingHold_closingHold _, hrecord', hquiet'.trans hquiet,
      fun hmax => ?counts, fun other hheld hother => ?held, ?joinedKept⟩
    case postponed =>
      have htrips := State.liftClosingHold_trips hwaitsw
      unfold State.TripsPostponed at htrips ⊢
      rwa [hget hwaits.1] at htrips
    case counts =>
      rw [← hcounter]
      exact State.liftClosingHold_counts hwaitsw (by rwa [hcounter])
    case held =>
      refine (State.liftClosingHold_other fun hw => ?_).trans (hget hother)
      have hport := hw.2.2.2
      rw [hports, hheld] at hport
      cases hport
    case joinedKept =>
      rw [← hw]
      simp [State.openedByBusTrip, hconn]

end Sys2Proof.Machine
end

section
/-! PROOF. JOIN and LEAVE (R58, R71, R72, R83 to R85, R154). -/

namespace Sys2Proof.Machine

/-! ## Timers of a state that is left -/

theorem State.changeConn_timers {new : ConnState} {path : Path} {s : State}
    (hnew : new = .tripped ∨ new = .lockout)
    (h : s.conn.state = new → s.conn.release = none ∧ s.conn.settle = none) :
    (s.changeConn new path).conn.release = none ∧ (s.changeConn new path).conn.settle = none := by
  unfold State.changeConn
  split
  · next hsame => exact h hsame
  · rcases hnew with rfl | rfl <;> simp

/-- A trip stops the settle and release timers; in TRIPPED and LOCKOUT they do not run. -/
theorem State.tripCore_timers (d : TripCause) {s : State}
    (h : s.conn.state = .tripped ∨ s.conn.state = .lockout → s.conn.release = none ∧ s.conn.settle = none) :
    (s.tripCore d).conn.release = none ∧ (s.tripCore d).conn.settle = none := by
  have hchange (new : ConnState) (hnew : new = .tripped ∨ new = .lockout) (u : State) (hu : u.conn = s.conn) :
      (u.changeConn new .none).conn.release = none ∧ (u.changeConn new .none).conn.settle = none := by
    refine State.changeConn_timers hnew fun hsame => ?_
    rw [hu] at hsame ⊢
    exact h (hsame ▸ hnew)
  have hdestination (b : Bool) : (if b = true then ConnState.lockout else .tripped) = .tripped
      ∨ (if b = true then ConnState.lockout else .tripped) = .lockout := by cases b <;> simp
  unfold State.tripCore
  dsimp only
  split <;> exact hchange _ (hdestination _) _ (by simp [State.openSwitches, State.recordTrip])

theorem State.liftClosingHold_timers {oc : Source} {s : State} (hwaits : s.WaitsForClosingHold oc)
    (h : s.conn.state = .tripped ∨ s.conn.state = .lockout → s.conn.release = none ∧ s.conn.settle = none) :
    s.liftClosingHold.conn.release = none ∧ s.liftClosingHold.conn.settle = none := by
  obtain ⟨-, ⟨htripped, -⟩, -⟩ := State.liftClosingHold_trips hwaits
  refine State.liftClosingHold_induction (P := fun u =>
    u.conn.state = .tripped ∨ u.conn.state = .lockout → u.conn.release = none ∧ u.conn.settle = none)
    h (fun oc w hoc ht hw _ => ?_) hwaits.2.1 htripped
  by_cases hheld : (w.fault.register.get oc).state = .held ∧ w.isHeld oc = false
  · rw [State.postponedOverCurrent_eq oc w hheld.1 hheld.2 hoc]
    exact State.tripCore_timers _ (by simpa using hw)
  · rw [State.postponedOverCurrent_of_not oc w hheld] at ht ⊢
    obtain ⟨-, -, ⟨hstate, -⟩, -⟩ := ht
    exact hw hstate

/-- Outside CLAIMING and CLOSING a change of connection state leaves the closure engine alone (R44). -/
theorem State.changeConn_closure_of_rest {new : ConnState} {path : Path} {s : State}
    (h : s.conn.state ≠ .claiming ∧ s.conn.state ≠ .closing) : (s.changeConn new path).closure = s.closure := by
  unfold State.changeConn
  split
  · rfl
  · have hrecord : s.recordAfter new = s.closure.record := if_neg fun hh => hh.1.elim h.1 h.2
    simp [hrecord]

/-! ## A CLAIM withdrawn -/

theorem filter_removeKind_self (k : FrameKind) (l : List TxFrame) :
    (removeKind k l).filter (fun g => decide (g.frame.kind = k)) = (l.filter fun g => decide (g.frame.kind = k)).tail := by
  induction l with
  | nil => rfl
  | cons g gs ih =>
    unfold removeKind
    split
    · next hg => rw [List.filter_cons_of_pos (by simpa using hg), List.tail_cons]
    · next hg => rw [List.filter_cons_of_neg (by simpa using hg), List.filter_cons_of_neg (by simpa using hg), ih]

theorem hasKind_eq_filter (k : FrameKind) (l : List TxFrame) :
    hasKind k l = !(l.filter fun g => decide (g.frame.kind = k)).isEmpty := by
  unfold hasKind
  induction l with
  | nil => rfl
  | cons g gs ih =>
    rw [findKind]
    split
    · next hg => rw [List.filter_cons_of_pos (by simpa using hg)]; rfl
    · next hg => rw [List.filter_cons_of_neg (by simpa using hg), ih]

/-! ## JOIN -/

/-- A pending sleep that is cancelled tells so (R71, R154). -/
theorem State.cancelSleep_event {s : State} (h : s.conn.sleepPending = true) :
    s.cancelSleep.hasEvent .sleepCancelled = true := by
  unfold State.cancelSleep
  rw [if_pos h]
  exact State.handStatus_stay _ _ (State.hasEvent_setEvent_self _ _)

theorem exec_join {s : State} (h : s.TakesRequests) :
    exec .join s = if s.committed = true ∧ s.conn.state = .detached then
        conclude s (((({ s with conn := { s.conn with joined := true } } : State).cancelSleep).changeConn .isolated
          .none).reply .done [])
      else .next (s.reply .refusedState []) := by
  simp only [exec, execJoin, portRequest_of_taken s _ _ h]

/-! ## LEAVE -/

/-- The station has left: the joined flag is clear, and no sleep is pending. -/
def State.left (s : State) : State := ({ s with conn := { s.conn with joined := false } } : State).cancelSleep

@[simp] theorem State.left_frame (s : State) :
    s.left.ownId = s.ownId ∧ s.left.fault = s.fault ∧ s.left.closure = s.closure ∧ s.left.conn.joined = false
      ∧ s.left.conn.sleepPending = false ∧ s.left.conn.state = s.conn.state ∧ s.left.mbi.tx = s.mbi.tx
      ∧ s.left.mbi.bus = s.mbi.bus := by
  simp [State.left, State.cancelSleep_sleepPending]

theorem State.left_abandon (s : State) :
    (s.left.queueAbandon .leave).Handed (.abandon ⟨s.closure.claimNumber, 4⟩) := by
  unfold State.queueAbandon
  rw [show s.left.closure = s.closure by simp]
  exact State.queueFrame_handed _ _ rfl

theorem State.unheld_entered {new : ConnState} {u : State} (h : u.Entered new) : u.unheld.Entered new := h

/-- What LEAVE does in each connection state. -/
theorem exec_leave {s : State} (h : s.TakesRequests) :
    exec .leave s = match s.conn.state with
      | .isolated => conclude s ((s.left.changeConn .detached .none).reply .done [])
      | .claiming => conclude s ((s.left.leaveClaim.changeConn .detached .none).reply .done [])
      | .closing => conclude s (((s.left.queueAbandon .leave).enterReleasing.liftClosingHold).reply .done [])
      | .connected => conclude s (((s.left.queueFrame .release).enterReleasing).reply .done [])
      | .detached | .releasing | .tripped | .lockout => .next (s.reply .refusedState []) := by
  have hleft : ({ s with conn := { s.conn with joined := false } } : State).cancelSleep = s.left := rfl
  simp only [exec, execLeave, portRequest_of_taken s _ _ h, hleft] <;> cases s.conn.state <;> rfl

theorem State.enterReleasing_entered {s : State} (h : s.conn.state ≠ .releasing) :
    s.enterReleasing.Entered .releasing ∧ s.enterReleasing.conn.release = some 2
      ∧ s.enterReleasing.conn.settle = none ∧ s.enterReleasing.fault = s.fault
      ∧ s.enterReleasing.conn.joined = s.conn.joined := by
  refine ⟨State.changeConn_entered _ _ _ (by simpa using h), ?_, ?_, by simp [State.enterReleasing],
    by simp [State.enterReleasing]⟩
  all_goals
    unfold State.enterReleasing State.changeConn
    rw [if_neg (by simpa using h)]
    simp [releaseMs]

theorem State.enterReleasing_handed {f : Frame} {s : State} (hf : f.kind ≠ .status) (h : s.Handed f) :
    s.enterReleasing.Handed f :=
  State.changeConn_handed _ _ _ _ hf h

/-- The claim that LEAVE ends (R58). -/
theorem State.leaveClaim_ends {c : Claim} {s : State} (h : s.closure.claim = some c) :
    s.leaveClaim.closure.claim = none ∧ s.leaveClaim.closure.lastOutcome = .leave
      ∧ (c.phase ≠ .queued → s.leaveClaim.Handed (.abandon ⟨s.closure.claimNumber, 4⟩))
      ∧ (c.phase = .queued → s.mbi.onLine = some .claim → s.leaveClaim.mbi.withdrawal = some .leave)
      ∧ (c.phase = .queued → s.mbi.onLine ≠ some .claim →
          s.leaveClaim.mbi.list = removeKind .claim s.mbi.list) := by
  unfold State.leaveClaim
  simp only [h]
  cases hphase : c.phase with
  | queued =>
    refine ⟨rfl, rfl, fun hne => absurd rfl hne, fun _ hline => ?_, fun _ hline => ?_⟩
    · simp only [State.withdrawClaim, hline, if_true]
      rfl
    · simp only [State.withdrawClaim, hline, if_false]
      rfl
  | awaiting ids timer =>
    refine ⟨rfl, rfl, fun _ => ?_, nofun, nofun⟩
    exact State.queueFrame_handed (.abandon ⟨s.closure.claimNumber, 4⟩) s rfl

/-- Settles O48: `exec_join` and `exec_leave`; in CLOSING the removal of the closing hold comes last. -/
theorem joinAndLeave : Obligations.JoinAndLeave := by
  intro s h refused
  refine ⟨fun hcommitted hstate => ?join, fun hno => ?joinRefused, fun hstate => ?leave, fun oc hstate hwaits => ?trips,
    fun hstate hnone => ?closing, fun hstate => ?connected, fun hstate => ?leaveRefused⟩
  case join =>
    have hjoin := exec_join h
    rw [if_pos ⟨hcommitted, hstate⟩] at hjoin
    have hne : ({ s with conn := { s.conn with joined := true } } : State).cancelSleep.conn.state ≠ .isolated := by
      simp [hstate]
    refine ends_of_conclude hjoin ⟨by simp, by simp [State.cancelSleep_sleepPending],
      State.reply_entered (State.changeConn_entered _ _ _ hne), rfl, by simp, ?_, fun hpending => ?_⟩
    · exact (State.changeConn_closure_of_rest (by simp [hstate])).trans (by simp)
    · exact State.changeConn_hasEvent _ _ _ _ (State.cancelSleep_event hpending)
  case joinRefused =>
    have hboth : ¬ (s.committed = true ∧ s.conn.state = .detached) := by
      rintro ⟨hcommitted, hstate⟩
      rcases hno with hno | hno
      · simp [hno] at hcommitted
      · exact hno hstate
    rw [exec_join h, if_neg hboth]
    rfl
  case leave =>
    rcases hstate with hstate | hstate
    · have hleave := exec_leave h
      rw [hstate] at hleave
      have hne : s.left.conn.state ≠ .detached := by simp [hstate]
      refine ends_of_conclude hleave ⟨by simp, by simp, State.reply_entered (State.changeConn_entered _ _ _ hne), rfl,
        by simp, fun c hclaiming => ?_⟩
      rw [hstate] at hclaiming
      cases hclaiming
    · have hleave := exec_leave h
      rw [hstate] at hleave
      have hne : s.left.leaveClaim.conn.state ≠ .detached := by simp [hstate]
      refine ends_of_conclude hleave ⟨by simp, by simp, State.reply_entered (State.changeConn_entered _ _ _ hne), rfl,
        by simp, fun c _ hclaim => ?_⟩
      have hclaimLeft : s.left.closure.claim = some c := by simpa using hclaim
      have hline : s.left.mbi.onLine = s.mbi.onLine := by simp [Mbi.onLine]
      obtain ⟨hnone, houtcome, habandon, hwithdrawn, hremoved⟩ := State.leaveClaim_ends hclaimLeft
      refine ⟨by simpa using hnone, by simpa using houtcome, fun hphase => ?_, fun hphase hon => ?_, fun hphase hoff => ?_⟩
      · have hhanded := State.changeConn_handed .detached .none _ _ (by simp [Frame.kind]) (habandon hphase)
        rwa [show s.left.closure = s.closure by simp] at hhanded
      · simpa using hwithdrawn hphase (by rwa [hline])
      · have hlist := hremoved hphase (by rwa [hline])
        have hframes : s.left.mbi.list.filter (fun g => decide (g.frame.kind = .claim))
            = s.mbi.list.filter fun g => decide (g.frame.kind = .claim) :=
          State.cancelSleep_sameFrames (q := fun k => decide (k = .claim)) rfl _
        have hkept := State.changeConn_hasKind (k := .claim) nofun .detached .none s.left.leaveClaim
        refine hkept.trans ?_
        rw [hlist, hasKind_eq_filter, hasKind_eq_filter, filter_removeKind_self, filter_removeKind_self, hframes]
  case trips =>
    have hleave := exec_leave h
    rw [hstate] at hleave
    obtain ⟨⟨hreleasing, -⟩, -, hsettle, hfault, hjoined⟩ :=
      State.enterReleasing_entered (s := s.left.queueAbandon .leave) (by simp [hstate])
    have hhanded : (s.left.queueAbandon .leave).enterReleasing.Handed (.abandon ⟨s.closure.claimNumber, 4⟩) :=
      State.enterReleasing_handed (by simp [Frame.kind]) s.left_abandon
    have hfault' : (s.left.queueAbandon .leave).enterReleasing.fault = s.fault := hfault.trans (by simp)
    generalize (s.left.queueAbandon .leave).enterReleasing = w at *
    have hwaitsw : w.WaitsForClosingHold oc := by
      unfold State.WaitsForClosingHold at hwaits ⊢
      rwa [hfault']
    obtain ⟨hreleased, hsettled⟩ := State.liftClosingHold_timers hwaitsw (by simp [hreleasing])
    refine ends_of_conclude hleave ⟨?postponed, State.liftClosingHold_tripped hwaitsw (by simp [hreleasing]), ?joined,
      hreleased, hsettled, State.liftClosingHold_closingHold w, fun hbus => ?abandon, rfl, ?counts⟩
    case postponed =>
      have htrips := State.liftClosingHold_trips hwaitsw
      unfold State.TripsPostponed at htrips ⊢
      rwa [hfault'] at htrips
    case joined => simpa using hjoined
    case abandon =>
      refine (State.liftClosingHold_sameFrames (q := fun k => decide (k = .abandon)) ⟨rfl, rfl, rfl⟩ w).pends rfl
        (hhanded ?_)
      simpa using hbus
    case counts =>
      rw [← hfault']
      exact State.liftClosingHold_counts hwaitsw
  case closing =>
    have hleave := exec_leave h
    rw [hstate] at hleave
    obtain ⟨hentered, hrelease, hsettle, hfault, hjoined⟩ :=
      State.enterReleasing_entered (s := s.left.queueAbandon .leave) (by simp [hstate])
    have hfault' : (s.left.queueAbandon .leave).enterReleasing.fault = s.fault := hfault.trans (by simp)
    have hhanded : (s.left.queueAbandon .leave).enterReleasing.Handed (.abandon ⟨s.closure.claimNumber, 4⟩) :=
      State.enterReleasing_handed (by simp [Frame.kind]) s.left_abandon
    have hjoined' : (s.left.queueAbandon .leave).enterReleasing.conn.joined = false := hjoined.trans (by simp)
    generalize (s.left.queueAbandon .leave).enterReleasing = w at *
    have hlift : w.liftClosingHold = w.unheld := by
      refine State.liftClosingHold_of_none fun oc hw => hnone oc ?_
      unfold State.WaitsForClosingHold at hw ⊢
      rwa [hfault'] at hw
    rw [hlift] at hleave
    refine ends_of_conclude hleave ⟨hjoined', State.reply_entered (State.unheld_entered hentered), hrelease, hsettle, ?_,
      hhanded, rfl⟩
    simp [State.unheld, hfault']
  case connected =>
    have hleave := exec_leave h
    rw [hstate] at hleave
    obtain ⟨hentered, hrelease, -, hfault, hjoined⟩ := State.enterReleasing_entered (s := s.left.queueFrame .release)
      (by simp [hstate])
    refine ends_of_conclude hleave ⟨?_, hentered, hrelease, ?_, rfl, ?_⟩
    · exact hjoined.trans (by simp)
    · exact State.enterReleasing_handed (f := .release) (by simp [Frame.kind]) (State.queueFrame_handed _ _ rfl)
    · exact hfault.trans (by simp)
  case leaveRefused =>
    rw [exec_leave h]
    rcases hstate with hs | hs | hs | hs <;> rw [hs] <;> rfl

end Sys2Proof.Machine
end

section
/-! PROOF. SET_HOLDS and CLEAR_FAULTS (R131 to R133, R137, R147). -/

namespace Sys2Proof.Machine

/-! ## Postponed action of the listed sources (R132) -/

theorem State.postponed_of_not {src : Source} {s : State}
    (h : (s.fault.register.get src).state = .held → s.isHeld src = true) : s.postponed src = s := by
  unfold State.postponed
  dsimp only
  exact if_neg fun hh => by simp [h hh.1] at hh

theorem State.postponedAll_of_none {l : List Source} {s : State}
    (h : ∀ src ∈ l, (s.fault.register.get src).state = .held → s.isHeld src = true) : s.postponedAll l = s := by
  induction l with
  | nil => rfl
  | cons src rest ih =>
    obtain ⟨hsrc, hrest⟩ := List.forall_mem_cons.1 h
    rw [State.postponedAll, State.postponed_of_not hsrc, ih hrest]

/-- Where one source alone is HELD, and none after its action, the list's action is the one of that source. -/
theorem State.postponedAll_of_one {src : Source} {l : List Source} {s : State}
    (hothers : ∀ other, other ≠ src → (s.fault.register.get other).state ≠ .held)
    (hafter : ∀ other, ((s.postponed src).fault.register.get other).state ≠ .held) (hmem : src ∈ l) :
    s.postponedAll l = s.postponed src := by
  induction l with
  | nil => cases hmem
  | cons first rest ih =>
    rw [State.postponedAll]
    by_cases hfirst : first = src
    · rw [hfirst]
      exact State.postponedAll_of_none fun other _ hheld => absurd hheld (hafter other)
    · rw [State.postponed_of_not fun hheld => absurd hheld (hothers first hfirst)]
      exact ih ((List.mem_cons.1 hmem).resolve_left (Ne.symm hfirst))

/-- The state in which a HELD source has become ACTIVE and its action follows (R132, R154). -/
def State.activated (src : Source) (s : State) : State :=
  (s.setSource src { s.fault.register.get src with state := .active }).cancelSleep

@[simp] theorem State.activated_frame (src : Source) (s : State) :
    (s.activated src).conn.state = s.conn.state ∧ (s.activated src).fault.portHolds = s.fault.portHolds
      ∧ (s.activated src).fault.tripCounter = s.fault.tripCounter ∧ (s.activated src).conn.sleepPending = false
      ∧ (s.activated src).fault.register
          = s.fault.register.set src { s.fault.register.get src with state := .active } := by
  simp [State.activated, State.cancelSleep_sleepPending]

theorem State.postponed_of_released {src : Source} {s : State} (hheld : (s.fault.register.get src).state = .held)
    (hfree : s.isHeld src = false) :
    s.postponed src
      = (s.activated src).takeAction src ((s.fault.register.get src).value.getD 0) .localOnly := by
  unfold State.postponed
  exact if_pos ⟨hheld, hfree⟩

section Released

variable {src : Source} {s : State}

/-- After the action of the one source that was HELD the register differs in that source alone. -/
theorem State.postponed_register (hheld : (s.fault.register.get src).state = .held) (hfree : s.isHeld src = false)
    (hothers : ∀ other, other ≠ src → (s.fault.register.get other).state ≠ .held) :
    (s.postponed src).fault.register.get src = { s.fault.register.get src with state := .active }
      ∧ ∀ other, other ≠ src → (s.postponed src).fault.register.get other = s.fault.register.get other := by
  rw [State.postponed_of_released hheld hfree]
  constructor
  · rw [State.takeAction_register _ _ _ _ _ (by simp)]
    simp
  · intro other hne
    have hget : (s.activated src).fault.register.get other = s.fault.register.get other := by
      rw [show (s.activated src).fault.register = _ from (State.activated_frame src s).2.2.2.2,
        FaultRegister.get_set_of_ne _ _ _ _ hne]
    rw [State.takeAction_register _ _ _ _ _ (by rw [hget]; exact hothers other hne), hget]

/-- The postponed action of a trip source is its trip, with the value it kept. -/
theorem State.postponed_trips (htrip : src.isTrip = true) (hclass : src.classB = true)
    (hheld : (s.fault.register.get src).state = .held) (hfree : s.isHeld src = false)
    (hothers : ∀ other, other ≠ src → (s.fault.register.get other).state ≠ .held) :
    s.TripsPostponed src (s.postponed src) := by
  obtain ⟨hself, -⟩ := State.postponed_register hheld hfree hothers
  refine ⟨hself, ?_⟩
  rw [State.postponed_of_released hheld hfree]
  have hpath := Source.isPath_of_trip (.inl htrip)
  obtain ⟨htripped, -, -, -, -, ⟨earlier, r, later, -, hhistory, ⟨hcode, hsource, hscope, hvalue, -⟩, -⟩, -⟩ :=
    State.takeAction_takes src ((s.fault.register.get src).value.getD 0) .localOnly (s.activated src) hpath
  refine ⟨htripped, State.takeAction_sleepPending _ _ _ (by simp), r, by rw [hhistory]; simp, hcode, hsource, ?_, hvalue⟩
  rw [hscope]
  cases src <;> simp_all [Source.classB, Source.cause]

/-- The postponed action of a path source beside the other one ACTIVE is a PATH_CONFLICT (R137). -/
theorem State.postponed_conflicts {opposite : Source}
    (hp : src = .modOv ∧ opposite = .modUv ∨ src = .modUv ∧ opposite = .modOv)
    (hheld : (s.fault.register.get src).state = .held) (hfree : s.isHeld src = false)
    (hopposite : (s.fault.register.get opposite).state = .active) :
    (s.postponed src).HasTripped ∧ ∃ r, r ∈ (s.postponed src).fault.history ∧ r.code = .pathConflict ∧ r.source = src
      ∧ r.value = (s.fault.register.get src).value.getD 0 ∧ r.scope = .localOnly := by
  have haction (value : Half) : (s.activated src).takeAction src value .localOnly
      = (s.activated src).takeTrip (conflictCause src value) := by
    have hactive : (s.activated src).isActive opposite = true := by
      unfold State.isActive
      rw [show (s.activated src).fault.register = _ from (State.activated_frame src s).2.2.2.2,
        FaultRegister.get_set_of_ne _ _ _ _ (by rcases hp with ⟨rfl, rfl⟩ | ⟨rfl, rfl⟩ <;> decide), hopposite]
      rfl
    rcases hp with ⟨rfl, rfl⟩ | ⟨rfl, rfl⟩ <;> exact if_pos hactive
  rw [State.postponed_of_released hheld hfree, haction]
  obtain ⟨htripped, -, -, -, -, ⟨earlier, r, later, -, hhistory, ⟨hcode, hsource, hscope, hvalue, -⟩, -⟩, -⟩ :=
    State.takeTrip_takes (conflictCause src ((s.fault.register.get src).value.getD 0)) (s.activated src)
  exact ⟨htripped, r, by rw [hhistory]; simp, hcode, hsource, hvalue, hscope⟩

/-- The postponed action of a path source alone is to follow the path sources (R136). -/
theorem State.postponed_follows {opposite : Source}
    (hp : src = .modOv ∧ opposite = .modUv ∨ src = .modUv ∧ opposite = .modOv)
    (hheld : (s.fault.register.get src).state = .held) (hfree : s.isHeld src = false)
    (hopposite : (s.fault.register.get opposite).state ≠ .active) :
    (s.postponed src).conn.state = s.conn.state ∧ (s.postponed src).fault.tripCounter = s.fault.tripCounter
      ∧ (s.conn.state = .closing ∨ s.conn.state = .connected →
          (s.postponed src).switches = { chg := decide (src ≠ .modOv), dsg := decide (src ≠ .modUv) })
      ∧ (s.conn.state = .connected →
          (s.postponed src).conn.path = if src = .modOv then .dischargeOnly else .chargeOnly) := by
  have hne : opposite ≠ src := by rcases hp with ⟨rfl, rfl⟩ | ⟨rfl, rfl⟩ <;> decide
  have hregister := (State.activated_frame src s).2.2.2.2
  have hopposite' : ((s.activated src).fault.register.get opposite).state ≠ .active := by
    rwa [hregister, FaultRegister.get_set_of_ne _ _ _ _ hne]
  have hactive : ((s.activated src).fault.register.get src).state = .active := by
    rw [hregister, FaultRegister.get_set_self]
  obtain ⟨hswitches, hpath⟩ := State.followPathSources_one hp hactive hopposite'
  rw [State.postponed_of_released hheld hfree, State.takeAction_follows _ _ hp hopposite']
  exact ⟨by simp, by simp, fun h => hswitches (by simpa using h), fun h => hpath (by simpa using h)⟩

end Released

/-! ## CLEAR_FAULTS (R147) -/

/-- Nothing has changed but the register, and STATUS frames in the list. -/
def State.TouchesRegister (s u : State) : Prop :=
  u = { s with
    mbi := { s.mbi with list := u.mbi.list, heldStatus := u.mbi.heldStatus }
    fault := { s.fault with register := u.fault.register } }

theorem State.TouchesRegister.trans {s u v : State} (h : s.TouchesRegister u) (h' : u.TouchesRegister v) :
    s.TouchesRegister v := by
  unfold State.TouchesRegister at *
  rw [h'.trans (by rw [h])]

theorem State.setSource_touchesRegister (src : Source) (x : SourceRecord) (s : State) :
    s.TouchesRegister (s.setSource src x) := by
  unfold State.TouchesRegister State.setSource
  dsimp only
  split
  · have heq := State.handStatus_eq { s with fault := { s.fault with register := s.fault.register.set src x } }
    rw [show (({ s with fault := { s.fault with register := s.fault.register.set src x } } : State).handStatus).fault
      = { s.fault with register := s.fault.register.set src x } by simp]
    exact heq
  · rfl

theorem State.clearLapsedAll_touches (mask : Half) (l : List Source) (s : State) :
    s.TouchesRegister (s.clearLapsedAll mask l) := by
  induction l generalizing s with
  | nil => rfl
  | cons src rest ih =>
    rw [State.clearLapsedAll]
    refine State.TouchesRegister.trans ?_ (ih _)
    unfold State.clearLapsed
    split
    · exact State.setSource_touchesRegister _ _ _
    · rfl

/-- The record of a source after the clearing (R147). -/
theorem State.clearLapsed_register (mask : Half) (src other : Source) (s : State) :
    (s.clearLapsed mask src).fault.register.get other
      = if other = src ∧ mask.getLsbD (other.code - 1) = true ∧ (s.fault.register.get other).state = .lapsed then
          { s.fault.register.get other with state := .clear }
        else s.fault.register.get other := by
  unfold State.clearLapsed
  by_cases ho : other = src
  · subst ho
    by_cases h : mask.getLsbD (other.code - 1) = true ∧ (s.fault.register.get other).state = .lapsed
    · rw [if_pos h, if_pos ⟨rfl, h⟩, State.setSource_register, FaultRegister.get_set_self]
    · rw [if_neg h, if_neg fun hh => h hh.2]
  · have hother : ¬ (other = src ∧ mask.getLsbD (other.code - 1) = true
        ∧ (s.fault.register.get other).state = .lapsed) := fun hh => ho hh.1
    rw [if_neg hother]
    split
    · rw [State.setSource_register, FaultRegister.get_set_of_ne _ _ _ _ ho]
    · rfl

theorem State.clearLapsedAll_register (mask : Half) (l : List Source) (other : Source) (s : State) :
    (s.clearLapsedAll mask l).fault.register.get other
      = if other ∈ l ∧ mask.getLsbD (other.code - 1) = true ∧ (s.fault.register.get other).state = .lapsed then
          { s.fault.register.get other with state := .clear }
        else s.fault.register.get other := by
  induction l generalizing s with
  | nil => simp [State.clearLapsedAll]
  | cons src rest ih =>
    rw [State.clearLapsedAll, ih, State.clearLapsed_register]
    by_cases h : other = src ∧ mask.getLsbD (other.code - 1) = true ∧ (s.fault.register.get other).state = .lapsed
    · obtain ⟨rfl, hmask, hlapsed⟩ := h
      simp [hmask, hlapsed]
    · rw [if_neg h]
      by_cases hr : other ∈ rest <;> by_cases ho : other = src <;> simp_all

/-! ## The mask -/

/-- The bits of the class A sources. -/
theorem mask_classA (mask : Half) : mask &&& 0x000F ≠ 0 ↔ mask.extractLsb' 0 4 ≠ 0 := by
  have hand : (mask &&& 0x000F).toNat = mask.toNat % 16 := by
    rw [BitVec.toNat_and]
    exact Nat.and_two_pow_sub_one_eq_mod _ 4
  have hlow : (mask.extractLsb' 0 4).toNat = mask.toNat % 16 := by simp [BitVec.extractLsb'_toNat]
  rw [ne_eq, ne_eq, ← BitVec.toNat_inj, ← BitVec.toNat_inj, hand, hlow]
  rfl

/-- A mask that names no class A source names class B sources alone. -/
theorem Source.classB_of_mask {src : Source} {mask : Half} (hmask : mask.extractLsb' 0 4 = 0)
    (hbit : mask.getLsbD (src.code - 1) = true) : src.classB = true := by
  have hlow (i : Nat) (hi : i < 4) : mask.getLsbD i = false := by
    have hzero := congrArg (fun v => v.getLsbD i) hmask
    simpa [BitVec.getLsbD_extractLsb', hi] using hzero
  cases hclass : src.classB with
  | true => rfl
  | false =>
    have hcode : src.code - 1 < 4 := by cases src <;> simp_all [Source.classB, Source.code]
    rw [hlow _ hcode] at hbit
    cases hbit

theorem Source.mem_all (src : Source) : src ∈ Source.all := by cases src <;> decide

/-- The state with the mask written. -/
def State.masked (mask : Half) (s : State) : State :=
  { s with fault := { s.fault with portHolds := mask.setWidth 10 } }

/-- Whether a source stays held under the mask. -/
theorem State.masked_isHeld (mask : Half) (src : Source) (s : State) :
    (s.masked mask).isHeld src
      = (src.classB && (mask.getLsbD (src.code - 1) || (s.fault.closingHold && src.isOverCurrent))) := by
  have hport : (s.masked mask).fault.portHolds.getLsbD (src.code - 1) = mask.getLsbD (src.code - 1) := by
    have hcode : src.code - 1 < 10 := by cases src <;> decide
    simp [State.masked, hcode]
  unfold State.isHeld
  rw [hport]
  rfl

theorem exec_setHolds {mask : Half} {s : State} (h : s.TakesRequests) (hc : s.committed = true)
    (hmask : mask.extractLsb' 0 4 = 0) :
    exec (.setHolds mask) s = conclude s (((s.masked mask).postponedAll Source.all).reply .done []) := by
  simp only [exec, execSetHolds, portRequest_of_taken s _ _ h]
  rw [if_neg (by simp [hc]), if_neg fun hh => (mask_classA mask).1 hh hmask]
  rfl

/-- Settles O51: the refusals, the mask that releases nothing, the one source that it releases, and CLEAR_FAULTS. -/
theorem holdsAndFaults : Obligations.HoldsAndFaults := by
  intro mask s h answer
  refine ⟨fun hc => ⟨?holdsRefused, ?faultsRefused⟩, fun hc hmask => ?classA, fun hc hmask hall => ?quiet,
    fun src hc hmask hclass hheld hbit hclosing hothers => ?released, fun hc => ?clear⟩
  case holdsRefused =>
    simp only [exec, execSetHolds, portRequest_of_taken s _ _ h, hc, if_true]
    rfl
  case faultsRefused =>
    simp only [exec, execClearFaults, portRequest_of_taken s _ _ h, hc, if_true]
    rfl
  case classA =>
    simp only [exec, execSetHolds, portRequest_of_taken s _ _ h]
    rw [if_neg (by simp [hc]), if_pos ((mask_classA mask).2 hmask)]
    rfl
  case quiet =>
    have hnone : (s.masked mask).postponedAll Source.all = s.masked mask := by
      refine State.postponedAll_of_none fun src _ hheld => ?_
      have hbit := hall src hheld
      rw [State.masked_isHeld, hbit, Source.classB_of_mask hmask hbit]
      rfl
    rw [exec_setHolds h hc hmask, hnone]
    exact conclude_end s _
  case released =>
    have hfree : (s.masked mask).isHeld src = false := by
      rw [State.masked_isHeld, hbit]
      cases hover : src.isOverCurrent with
      | false => simp
      | true =>
        have hoff := hclosing (by cases src <;> simp_all [Source.isOverCurrent])
        simp [hoff]
    obtain ⟨hself, hrest⟩ := State.postponed_register (s := s.masked mask) hheld hfree hothers
    have hafter (other : Source) : (((s.masked mask).postponed src).fault.register.get other).state ≠ .held := by
      by_cases hne : other = src
      · rw [hne, hself]
        nofun
      · rw [hrest other hne]
        exact hothers other hne
    have hexec : exec (.setHolds mask) s = conclude s (((s.masked mask).postponed src).reply .done []) := by
      rw [exec_setHolds h hc hmask, State.postponedAll_of_one (s := s.masked mask) hothers hafter src.mem_all]
    refine ends_of_conclude hexec ⟨hself, hrest, ?sleep, ?holds, rfl,
      fun htrip => State.postponed_trips (s := s.masked mask) htrip hclass hheld hfree hothers,
      fun opposite hp => ⟨State.postponed_conflicts (s := s.masked mask) hp hheld hfree,
        State.postponed_follows (s := s.masked mask) hp hheld hfree⟩⟩
    case sleep =>
      rw [State.postponed_of_released (s := s.masked mask) hheld hfree]
      exact State.takeAction_sleepPending _ _ _ (by simp)
    case holds =>
      have hkept : ((s.masked mask).postponed src).fault.portHolds = (s.masked mask).fault.portHolds := by simp
      exact hkept.trans (BitVec.setWidth_eq_extractLsb' (by decide)).symm
  case clear =>
    have hexec : exec (.clearFaults mask) s = conclude s ((s.clearLapsedAll mask Source.all).reply .done []) := by
      simp only [exec, execClearFaults, portRequest_of_taken s _ _ h]
      rw [if_neg (by simp [hc])]
    refine ends_of_conclude hexec ⟨fun src => ?_, congrArg (State.reply .done []) (State.clearLapsedAll_touches mask _ s)⟩
    refine (State.clearLapsedAll_register mask Source.all src s).trans ?_
    simp only [src.mem_all, true_and]

end Sys2Proof.Machine
end

section
/-! PROOF. Accepted frames of every kind (R8, R9, R16, R17, R25). -/

namespace Sys2Proof.Machine

/-! ## What no effect of a frame touches -/

/-- The counts of the receiver, the Roster and everything outside the closure engine, the connection and the Fault Unit are
as in `w`, and every event of `w` is set. -/
def State.KeepsReception (w u : State) : Prop :=
  (u.mbi.recCount = w.mbi.recCount ∧ u.mbi.rejectMuted = w.mbi.rejectMuted ∧ u.mbi.goodCount = w.mbi.goodCount
    ∧ u.mbi.silenceTimer = w.mbi.silenceTimer ∧ u.mbi.slotDriven = w.mbi.slotDriven ∧ u.mbi.line = w.mbi.line
    ∧ u.mbi.tec = w.mbi.tec ∧ u.mbi.bus = w.mbi.bus ∧ u.roster = w.roster
    ∧ u.ownId = w.ownId ∧ u.config = w.config ∧ u.committed = w.committed ∧ u.meas = w.meas ∧ u.charge = w.charge
    ∧ u.det = w.det ∧ u.power = w.power ∧ u.port.enables = w.port.enables)
  ∧ w.EventsStay u

theorem State.KeepsReception.refl (w : State) : w.KeepsReception w := ⟨by simp, .refl w⟩

theorem State.clearRecordOf_keepsReception (id : StationId) (w : State) : w.KeepsReception (w.clearRecordOf id) :=
  ⟨by simp, .of_events (by simp)⟩

theorem State.clearRecordFor_keepsReception (id : StationId) (number : Byte) (w : State) :
    w.KeepsReception (w.clearRecordFor id number) := ⟨by simp, .of_events (by simp)⟩

theorem State.followBusTrip_stay (w : State) : w.EventsStay w.followBusTrip := by
  have htaken : w.EventsStay w.takeBusTrip := .of_events rfl
  have hopened : w.EventsStay w.openedByBusTrip :=
    htaken.trans ((State.changeConn_stay _ _ w.takeBusTrip.openSwitches).trans (State.setEvent_stay _ _))
  cases h : w.conn.state with
  | claiming =>
    rw [State.followBusTrip_claiming h]
    exact htaken.trans ((State.EventsStay.of_events (by simp)).trans
      ((State.changeConn_stay _ _ _).trans (State.setEvent_stay _ _)))
  | closing => rw [State.followBusTrip_closing h]; exact hopened.trans (State.liftClosingHold_stay _)
  | connected => rw [State.followBusTrip_connected h]; exact hopened
  | releasing => rw [State.followBusTrip_releasing h]; exact htaken.trans (State.setEvent_stay _ _)
  | detached => rw [State.followBusTrip_other (.inl h)]; exact htaken
  | isolated => rw [State.followBusTrip_other (.inr (.inl h))]; exact htaken
  | tripped => rw [State.followBusTrip_other (.inr (.inr (.inl h)))]; exact htaken
  | lockout => rw [State.followBusTrip_other (.inr (.inr (.inr h)))]; exact htaken

theorem State.followBusTrip_keepsReception (w : State) : w.KeepsReception w.followBusTrip :=
  ⟨by simp, w.followBusTrip_stay⟩

theorem State.failClaim_stay (o : ClaimOutcome) (w : State) : w.EventsStay (w.failClaim o) :=
  fun _ he => State.changeConn_hasEvent _ _ _ _ (State.hasEvent_setEvent_of_has _ _ _ he)

theorem State.yieldClaim_stay (w : State) : w.EventsStay w.yieldClaim := by
  unfold State.yieldClaim
  cases w.closure.claim with
  | none => exact .refl w
  | some c =>
    cases hphase : c.phase with
    | queued =>
      simp only [hphase]
      exact (State.EventsStay.of_events (by simp)).trans (State.changeConn_stay _ _ _)
    | awaiting ids timer => simp only [hphase]; exact .refl w

theorem State.claimEffect_keepsReception (src : StationId) (p : ClaimPayload) (w : State) :
    w.KeepsReception (w.yieldClaim.claimAnswered src p) := by
  refine ⟨?_, w.yieldClaim_stay.trans (State.claimAnswered_stay src p _)⟩
  unfold State.claimAnswered State.recordClaim
  split <;> simp

theorem State.objected_keepsReception (src : StationId) (p : ObjectPayload) (w : State) :
    w.KeepsReception (w.objected src p) := by
  unfold State.objected
  split
  · exact ⟨by simp, (State.queueFrame_stay _ _).trans (State.failClaim_stay _ _)⟩
  · exact .refl w

theorem State.abandon_stay (r : AbandonReason) (o : ClaimOutcome) (w : State) :
    w.EventsStay ((w.queueAbandon r).failClaim o) :=
  (State.queueFrame_stay _ _).trans (State.failClaim_stay _ _)

theorem State.enterClosing_stay (w : State) : w.EventsStay w.enterClosing :=
  fun _ he => State.changeConn_hasEvent _ _ _ _ he

theorem State.windowTest_stay (w : State) : w.EventsStay w.windowTest := by
  have hcloses : w.EventsStay (w.endClaim .succeeded).enterClosing :=
    (show w.EventsStay (w.endClaim .succeeded) from .of_events rfl).trans (State.enterClosing_stay _)
  unfold State.windowTest
  cases w.meas.sample with
  | none => exact State.abandon_stay _ _ w
  | some x =>
    dsimp only
    split
    · exact hcloses
    · exact State.abandon_stay _ _ w

theorem State.takeAssent_stay (src : StationId) (ids : List StationId) (timer : Nat) (w : State) :
    w.EventsStay (w.takeAssent src ids timer) := by
  have hclosure (c : Closure) : w.EventsStay { w with closure := c } := .of_events rfl
  unfold State.takeAssent
  dsimp only
  split
  · split
    · exact (hclosure _).trans (State.windowTest_stay _)
    · exact hclosure _
  · exact .refl w

theorem State.assented_keepsReception (src : StationId) (p : AssentPayload) (w : State) :
    w.KeepsReception (w.assented src p) := by
  unfold State.assented
  split
  · exact ⟨by simp, State.takeAssent_stay _ _ _ w⟩
  · exact .refl w

/-! ## One statement for every kind -/

/-- A change of an entry that leaves it fresh. -/
def KeepsFresh (update : RosterEntry → RosterEntry) : Prop :=
  ∀ e, e.age = 0 → e.state = .present → (update e).age = 0 ∧ ((update e).state = .present ∨ (update e).state = .asleep)

theorem keepsFresh_of_same {update : RosterEntry → RosterEntry}
    (h : ∀ e, (update e).age = e.age ∧ (update e).state = e.state) : KeepsFresh update := fun e hage hstate =>
  ⟨(h e).1.trans hage, .inl ((h e).2.trans hstate)⟩

theorem takeStatus_keepsFresh (p : StatusPayload) : KeepsFresh (RosterEntry.takeStatus p) := by
  intro e hage _
  unfold RosterEntry.takeStatus
  dsimp only
  split <;> simp [hage]

theorem exec_received_refreshOnly {src : StationId} {f : Frame} {s : State} (hhears : s.hears = true)
    (hsrc : src ≠ s.ownId) (hf : f.refreshOnly = true) : exec (f.received src) s = conclude s (s.refreshed src) := by
  cases f with
  | closed p | release => simp [Frame.refreshOnly] at hf
  | trip p => rw [Frame.received, exec, execTripReceived, accepted_refreshOnly _ hhears hsrc hf, State.refreshed]
  | claim p => rw [Frame.received, exec, execClaimReceived, accepted_refreshOnly _ hhears hsrc hf, State.refreshed]
  | object p => rw [Frame.received, exec_objectReceived _ _ hhears hsrc, if_pos hf]
  | assent p => rw [Frame.received, exec_assentReceived _ _ hhears hsrc, if_pos hf]
  | abandon p => rw [Frame.received, exec, execAbandonReceived, accepted_refreshOnly _ hhears hsrc hf, State.refreshed]
  | status p => rw [Frame.received, exec, execStatusReceived, accepted_refreshOnly _ hhears hsrc hf, State.refreshed]

/-- A frame that is taken is a change of its sender's entry, and an effect that leaves the reception alone. -/
theorem exec_received_known {src : StationId} {f : Frame} {s : State} (hhears : s.hears = true) (hsrc : src ≠ s.ownId)
    (hf : f.refreshOnly = false) : ∃ update u, exec (f.received src) s = conclude s u ∧ KeepsFresh update
      ∧ ((s.accepting src).rosterFrame src update).KeepsReception u := by
  have hid : KeepsFresh id := keepsFresh_of_same fun _ => ⟨rfl, rfl⟩
  cases f with
  | status p =>
    refine ⟨RosterEntry.takeStatus p, _, exec_statusReceived hhears hsrc hf, takeStatus_keepsFresh p, ?_⟩
    unfold State.statusTaken
    split
    · exact State.clearRecordOf_keepsReception _ _
    · exact .refl _
  | trip p =>
    by_cases hscope : p.scope = 1
    · exact ⟨id, _, exec_tripReceived_bus hhears hsrc hf hscope, hid, State.followBusTrip_keepsReception _⟩
    · have hlocal : p.scope = 0 := by
        simp only [Frame.refreshOnly, Bool.or_eq_false_iff, decide_eq_false_iff_not] at hf
        bv_omega
      exact ⟨fun e => { e with trippedLocal := true }, _, exec_tripReceived_local hhears hsrc hf hlocal, keepsFresh_of_same fun _ => ⟨rfl, rfl⟩,
        State.clearRecordOf_keepsReception _ _⟩
  | claim p =>
    exact ⟨fun e => { e with lastClaim := some p.number }, _, exec_claimReceived hhears hsrc hf, keepsFresh_of_same fun _ => ⟨rfl, rfl⟩,
      State.claimEffect_keepsReception src p (s.claimNoted src p)⟩
  | object p =>
    have hexec := exec_objectReceived src p hhears hsrc
    rw [hf] at hexec
    exact ⟨id, _, hexec, hid, State.objected_keepsReception src p (s.refreshed src)⟩
  | assent p =>
    have hexec := exec_assentReceived src p hhears hsrc
    rw [hf] at hexec
    exact ⟨id, _, hexec, hid, State.assented_keepsReception src p (s.refreshed src)⟩
  | closed p =>
    exact ⟨fun e => { e with announced := some .connected, trippedLocal := false }, _,
      exec_closedReceived p hhears hsrc, keepsFresh_of_same fun _ => ⟨rfl, rfl⟩,
      State.clearRecordFor_keepsReception _ _ _⟩
  | abandon p =>
    exact ⟨id, _, exec_abandonReceived hhears hsrc hf, hid, State.clearRecordFor_keepsReception _ _ _⟩
  | release =>
    exact ⟨RosterEntry.takeRelease, _, exec_releaseReceived hhears hsrc, keepsFresh_of_same fun _ => ⟨rfl, rfl⟩, .refl _⟩

/-- Settles O20: the counts by `acceptFrame_eq`, the entry by the refresh, the rest by `KeepsReception`. -/
theorem acceptedFrames : Obligations.AcceptedFrames := by
  intro src f s hhears hsrc
  obtain ⟨update, u, hexec, hfresh, hkeeps, honly⟩ : ∃ update u, exec (f.received src) s = conclude s u
      ∧ KeepsFresh update ∧ ((s.accepting src).rosterFrame src update).KeepsReception u
      ∧ (f.refreshOnly = true → update = id ∧ u = s.refreshed src) := by
    cases hf : f.refreshOnly with
    | true =>
      exact ⟨id, _, exec_received_refreshOnly hhears hsrc hf, keepsFresh_of_same fun _ => ⟨rfl, rfl⟩, .refl _,
        fun _ => ⟨rfl, rfl⟩⟩
    | false =>
      obtain ⟨update, u, hexec, hfresh, hkeeps⟩ := exec_received_known hhears hsrc hf
      exact ⟨update, u, hexec, hfresh, hkeeps, nofun⟩
  obtain ⟨⟨hrec, hmuted, hgood, hsilence, hslot, hline, htec, hbus, hroster, hown, hconfig, hcommitted, hmeas, hcharge,
    hdet, hpower, henables⟩, hstay⟩ := hkeeps
  obtain ⟨hage, hpresent, -⟩ := refreshedEntry_fields src s.roster
  obtain ⟨t, ht, hend⟩ := conclude_end s u
  obtain ⟨hbusy, hdriven, htimer⟩ := s.receiving_fields
  have hmbi : ((s.accepting src).rosterFrame src update).mbi = (s.receiving.acceptFrame src).mbi := by
    simp [State.accepting]
  rw [s.receiving.acceptFrame_eq src] at hmbi
  rw [hmbi] at hrec hmuted hgood hsilence hslot hline htec hbus
  have hsroster : (s.accepting src).roster = s.roster := by simp
  refine ⟨u, t, hexec.trans ht, hend, hrec.trans (by simp), hmuted.trans (by simp), fun hsilent hmark => ⟨?good, ?silence⟩,
    hslot.trans hdriven, hline.trans hbusy, htec.trans (by simp), hbus.trans (by simp), fun hnone => ?arrived,
    fun id hne => ?others, ⟨update (refreshedEntry src s.roster), ?entry, ?age, ?state, fun hf => ?refreshed⟩,
    hown.trans (by simp), hconfig.trans (by simp), hcommitted.trans (by simp), hmeas.trans (by simp),
    hcharge.trans (by simp), hdet.trans (by simp), hpower.trans (by simp), henables.trans (by simp), fun hf => ?kept⟩
  case good =>
    have hcounts : s.receiving.mbi.bus = .silent ∧ s.receiving.mbi.permanentSilence = false := by simp [hsilent, hmark]
    rw [hgood, if_pos hcounts, if_neg (by simpa using hsrc)]
    simp
  case silence => rw [hsilence, htimer, if_pos ⟨hsilent, hmark⟩]
  case arrived => exact hstay _ (State.rosterFrame_arrived _ (by rwa [hsroster]))
  case others => rw [hroster, State.rosterFrame_other _ _ hne, hsroster]
  case entry => rw [hroster, State.rosterFrame_self, hsroster]
  case age => exact (hfresh _ hage hpresent).1
  case state => exact (hfresh _ hage hpresent).2
  case refreshed =>
    rw [(honly hf).1]
    unfold refreshedEntry
    cases rosterGet src s.roster <;> rfl
  case kept =>
    obtain ⟨hconn, hswitches, hfault, -⟩ := s.refreshed_kept src
    rw [(honly hf).2, hconn, hswitches, hfault]
    exact ⟨by simp, rfl, rfl, rfl⟩

end Sys2Proof.Machine
end

section
/-! PROOF. An onset outside CLOSING, the records of a trip taken in CLOSING, and the duplicate id (R18, R60, R129, R138, R141). -/

namespace Sys2Proof.Machine

/-! ## The onset of a source that is no path source, outside CLOSING -/

theorem State.postponedOverCurrent_keepsMbi (src : Source) {s : State} (hbus : s.mbi.bus ≠ .active)
    (hclaim : s.closure.claim = none) : s.KeepsMbi (s.postponedOverCurrent src) := by
  unfold State.postponedOverCurrent
  dsimp only
  split
  · refine State.KeepsMbi.trans ((State.setSource_keepsMbi _ _ hbus).trans (State.cancelSleep_keepsMbi ?_))
      (State.tripCore_keepsMbi _ ?_ ?_)
    · simpa using hbus
    · simpa using hbus
    · simpa using hclaim
  · exact ⟨rfl, rfl, id, id⟩

theorem State.liftClosingHold_keepsMbi {s : State} (hbus : s.mbi.bus ≠ .active) (hclaim : s.closure.claim = none) :
    s.KeepsMbi s.liftClosingHold := by
  unfold State.liftClosingHold
  split
  · have hfirst := State.postponedOverCurrent_keepsMbi .ocDsg (s := s.unheld) hbus hclaim
    obtain ⟨hmbi, hnone, -⟩ := id hfirst
    have hsecond := State.postponedOverCurrent_keepsMbi .ocChg (s := s.unheld.postponedOverCurrent .ocDsg)
      (by rw [hmbi]; exact hbus) (hnone.trans hclaim)
    exact hfirst.trans hsecond
  · exact ⟨rfl, rfl, id, id⟩

theorem State.takeTrip_keepsMbi (d : TripCause) {s : State} (hbus : s.mbi.bus ≠ .active) (hclaim : s.closure.claim = none) :
    s.KeepsMbi (s.takeTrip d) := by
  have hcore := State.tripCore_keepsMbi d hbus hclaim
  obtain ⟨hmbi, hnone, -⟩ := id hcore
  unfold State.takeTrip
  split
  · exact hcore.trans (State.liftClosingHold_keepsMbi (by rwa [hmbi]) (hnone.trans hclaim))
  · exact hcore

section Outside

variable {src : Source} {value : Half} {reported : Scope} {s : State}

theorem State.takeAction_of_not_path (hp : src.isPath = false) :
    s.takeAction src value reported = s.takeTrip (src.tripCause value reported) := by
  unfold State.takeAction
  cases src with
  | modOv | modUv => cases hp
  | short | tempTrip | busOv | dupId | ocDsg | ocChg | busSilent | rxDegraded => rfl

/-- Such an onset writes its source, and takes one trip at most. -/
theorem State.takeOnset_elim {P : State → Prop} (hp : src.isPath = false)
    (hset : ∀ x, P (s.setSource src x)) (hheld : ∀ x, P ((s.setSource src x).setEvent .heldFault))
    (htrip : ∀ x, P (((s.setSource src x).cancelSleep).takeTrip (src.tripCause value reported)))
    (hagain : ∀ x, P ((s.setSource src x).takeTrip (src.tripCause value reported))) :
    P (s.takeOnset src value reported) := by
  by_cases ha : s.actsOn src = true
  · cases hx : (s.fault.register.get src).state with
    | clear | lapsed =>
      cases hcovered : s.isHeld src
      · rw [State.takeOnset_armed value reported ha (by simp [hx]) hcovered, State.takeAction_of_not_path hp]
        exact htrip _
      · rw [State.takeOnset_covered value reported ha (by simp [hx]) hcovered]
        exact hheld _
    | active =>
      by_cases ht : src.isTrip = true
      · rw [State.takeOnset_again value reported ha hx ht, State.takeAction_of_not_path hp]
        exact hagain _
      · rw [State.takeOnset_noted value reported (.inr ⟨hx, by simpa using ht⟩)]
        exact hset _
    | held =>
      rw [State.takeOnset_noted value reported (.inl hx)]
      exact hset _
  · rw [State.takeOnset_of_not_acting value reported (by simpa using ha)]
    exact hset _

/-- Outside CLOSING the trip is the procedure alone. -/
theorem State.takeOnset_outside {P : State → Prop} (hp : src.isPath = false) (h : s.conn.state ≠ .closing)
    (hset : ∀ x, P (s.setSource src x)) (hheld : ∀ x, P ((s.setSource src x).setEvent .heldFault))
    (htrip : ∀ x, P (((s.setSource src x).cancelSleep).tripCore (src.tripCause value reported)))
    (hagain : ∀ x, P ((s.setSource src x).tripCore (src.tripCause value reported))) :
    P (s.takeOnset src value reported) := by
  have hcore (u : State) (hu : u.conn.state = s.conn.state) (d : TripCause) : u.takeTrip d = u.tripCore d := by
    rw [State.takeTrip, if_neg (by rwa [hu])]
  refine State.takeOnset_elim hp hset hheld (fun x => ?_) fun x => ?_
  · rw [hcore _ (by simp)]
    exact htrip x
  · rw [hcore _ (by simp)]
    exact hagain x

/-- A tripped station stays tripped. -/
theorem State.takeOnset_hasTripped (hp : src.isPath = false) (h : s.HasTripped) :
    (s.takeOnset src value reported).HasTripped := by
  have hset (x : SourceRecord) : (s.setSource src x).HasTripped := State.setSource_hasTripped h
  refine State.takeOnset_outside hp (by rcases h.1 with h | h <;> simp [h]) hset (fun x => ?_)
    (fun x => State.tripCore_hasTripped _ _) (fun x => State.tripCore_hasTripped _ _)
  obtain ⟨hstate, hswitches, hclaim, hevent⟩ := hset x
  exact ⟨hstate, hswitches, hclaim, State.hasEvent_setEvent_of_has _ _ _ hevent⟩

theorem State.setSource_fault_eq (src : Source) (x : SourceRecord) (s : State) :
    (s.setSource src x).fault = { s.fault with register := s.fault.register.set src x } := by
  unfold State.setSource
  dsimp only
  split <;> simp

/-- The lockout window stays as it is unless the source is of class A. -/
theorem State.takeOnset_lockoutWindow (hp : src.isPath = false) (h : s.conn.state ≠ .closing)
    (hclass : src.classB = true) : (s.takeOnset src value reported).fault.lockout = s.fault.lockout := by
  have htrip (u : State) (hu : u.fault.lockout = s.fault.lockout) :
      (u.tripCore (src.tripCause value reported)).fault.lockout = s.fault.lockout := by
    have hcause : (src.tripCause value reported).classA = false := by
      cases src <;> simp_all [Source.classB, Source.tripCause]
    rw [State.tripCore_fault, hcause]
    exact hu
  have hset (x : SourceRecord) : (s.setSource src x).fault.lockout = s.fault.lockout := by
    rw [State.setSource_fault_eq]
  exact State.takeOnset_outside (P := fun u => u.fault.lockout = s.fault.lockout) hp h hset hset
    (fun x => htrip _ (by rw [State.cancelSleep_register, hset])) fun x => htrip _ (hset x)

theorem State.takeOnset_sleepPending (hp : src.isPath = false) (h : s.conn.state ≠ .closing)
    (hsleep : s.conn.sleepPending = false) : (s.takeOnset src value reported).conn.sleepPending = false := by
  have hset (x : SourceRecord) : (s.setSource src x).conn.sleepPending = false := by simpa using hsleep
  exact State.takeOnset_outside (P := fun u => u.conn.sleepPending = false) hp h hset hset
    (fun x => by simp [State.cancelSleep_sleepPending]) fun x => by simpa using hset x

/-- A record with at most two behind it stays in the history. -/
theorem State.takeOnset_record {r : TripRecord} {earlier later : List TripRecord} (hp : src.isPath = false)
    (h : s.conn.state ≠ .closing) (hhistory : s.fault.history = earlier ++ r :: later) (hlater : later.length ≤ 2) :
    r ∈ (s.takeOnset src value reported).fault.history := by
  have htrip (u : State) (hu : u.fault.history = s.fault.history) :
      r ∈ (u.tripCore (src.tripCause value reported)).fault.history := by
    rw [State.tripCore_fault]
    dsimp only
    rw [hu, hhistory]
    obtain ⟨e, -, he⟩ := appendTrip_keeps earlier later r (u.nextRecord (src.tripCause value reported)) hlater
    rw [he]
    simp
  have hset (x : SourceRecord) : (s.setSource src x).fault.history = s.fault.history := by
    rw [State.setSource_fault_eq]
  have hin (x : SourceRecord) : r ∈ (s.setSource src x).fault.history := by
    rw [hset, hhistory]
    simp
  exact State.takeOnset_outside (P := fun u => r ∈ u.fault.history) hp h hin hin
    (fun x => htrip _ (by rw [State.cancelSleep_register, hset])) fun x => htrip _ (hset x)

/-- While nothing is queued and no claim is in progress the MBI keeps what it holds. -/
theorem State.takeOnset_keepsMbi (hp : src.isPath = false) (hbus : s.mbi.bus ≠ .active)
    (hclaim : s.closure.claim = none) : (s.takeOnset src value reported).mbi = s.mbi := by
  have hset (x : SourceRecord) : s.KeepsMbi (s.setSource src x) := State.setSource_keepsMbi src x hbus
  have hcancel (x : SourceRecord) : s.KeepsMbi ((s.setSource src x).cancelSleep) :=
    (hset x).trans (State.cancelSleep_keepsMbi (by simpa using hbus))
  have htrip {u : State} (hu : s.KeepsMbi u) : (u.takeTrip (src.tripCause value reported)).mbi = s.mbi := by
    obtain ⟨hmbi, hnone, -⟩ := hu
    obtain ⟨hkept, -⟩ := State.takeTrip_keepsMbi (src.tripCause value reported) (by rwa [hmbi]) (hnone.trans hclaim)
    exact hkept.trans hmbi
  exact State.takeOnset_elim (P := fun u => u.mbi = s.mbi) hp (fun x => (hset x).1) (fun x => (hset x).1)
    (fun x => htrip (hcancel x)) fun x => htrip (hset x)

end Outside

/-! ## The record of a trip, in CLOSING and elsewhere -/

/-- Behind the record of a trip stand two others at most. -/
theorem State.takeTrip_history (d : TripCause) (s : State) : ∃ earlier r later,
    (s.takeTrip d).fault.history = earlier ++ r :: later ∧ later.length ≤ 2
      ∧ r.Tells d s.conn.state (s.fault.tripCounter + 1) s.snapshot := by
  by_cases hstate : s.conn.state = .closing
  · obtain ⟨-, hnone, -, -, hone, hboth⟩ := State.takeTrip_lifts d s hstate
    rw [hstate]
    by_cases hdsg : s.WaitsForClosingHold .ocDsg
    · by_cases hchg : s.WaitsForClosingHold .ocChg
      · obtain ⟨-, earlier, first, second, third, -, hhistory, htells, -⟩ := hboth hdsg hchg
        exact ⟨earlier, first, [second, third], hhistory, le_refl _, htells⟩
      · obtain ⟨-, earlier, first, second, -, hhistory, htells, -⟩ := hone _ _ (.inl ⟨rfl, rfl⟩) hdsg hchg
        exact ⟨earlier, first, [second], hhistory, by simp, htells⟩
    · by_cases hchg : s.WaitsForClosingHold .ocChg
      · obtain ⟨-, earlier, first, second, -, hhistory, htells, -⟩ := hone _ _ (.inr ⟨rfl, rfl⟩) hchg hdsg
        exact ⟨earlier, first, [second], hhistory, by simp, htells⟩
      · have hno (oc : Source) : ¬ s.WaitsForClosingHold oc := by
          intro hw
          rcases hw.1 with rfl | rfl
          · exact hdsg hw
          · exact hchg hw
        obtain ⟨earlier, -, hlast⟩ := appendTrip_eq s.fault.history (s.nextRecord d)
        have htells := State.nextRecord_tells d s
        rw [hstate] at htells
        refine ⟨earlier, s.nextRecord d, [], ?_, by simp, htells⟩
        rw [hnone hno, State.tripCore_fault]
        exact hlast
  · obtain ⟨-, -, -, -, -, ⟨earlier, r, later, -, hhistory, htells, -, hlater⟩, -⟩ := State.takeTrip_takes d s
    obtain rfl := hlater.resolve_right fun hh => hstate hh.1
    exact ⟨earlier, r, [], hhistory, by simp, htells⟩

/-! ## The duplicate id -/

theorem exec_received_own {f : Frame} {s : State} (hhears : s.hears = true) :
    exec (f.received s.ownId) s = conclude s (s.accepting s.ownId).duplicateId := by
  cases f with
  | trip p => rw [Frame.received, exec, execTripReceived, accepted_own _ hhears rfl]
  | claim p => rw [Frame.received, exec, execClaimReceived, accepted_own _ hhears rfl]
  | object p => rw [Frame.received, exec, execObjectReceived, accepted_own _ hhears rfl]
  | assent p => rw [Frame.received, exec, execAssentReceived, accepted_own _ hhears rfl]
  | closed p => rw [Frame.received, exec, execClosedReceived, accepted_own _ hhears rfl]
  | abandon p => rw [Frame.received, exec, execAbandonReceived, accepted_own _ hhears rfl]
  | release => rw [Frame.received, exec, execReleaseReceived, accepted_own _ hhears rfl]
  | status p => rw [Frame.received, exec, execStatusReceived, accepted_own _ hhears rfl]

/-- SILENT entered with the mark, before DUP_ID is reported. -/
def State.markedSilent (s : State) : State :=
  { s with mbi := { s.mbi with bus := .silent, permanentSilence := true, goodCount := 0, silenceTimer := none } }

/-- DUP_ID reported, and the list discarded behind it. -/
def State.dupReported (s : State) : State :=
  (s.markedSilent.takeOnset .dupId (s.ownId.setWidth 16) .localOnly).discardFrames.claimMeetsSilence

theorem State.duplicateId_eq (s : State) : s.duplicateId
    = if s.mbi.bus ≠ .silent then s.dupReported.takeOnset .busSilent s.dupReported.tecValue .localOnly
      else s.dupReported := by
  unfold State.duplicateId
  simp only [decide_eq_true_eq]
  rfl

theorem State.claimMeetsSilence_of_none {s : State} (h : s.closure.claim = none) : s.claimMeetsSilence = s := by
  simp only [State.claimMeetsSilence, h]

/-- The report of DUP_ID that finds it CLEAR (R129, R141). -/
theorem State.dupReported_fields {s : State} (h : s.fault.register.dupId.state = .clear) :
    s.dupReported.HasTripped ∧ s.dupReported.conn.state = .lockout ∧ s.dupReported.fault.lockout = some 10000
      ∧ s.dupReported.conn.sleepPending = false
      ∧ s.dupReported.fault.register.dupId = ⟨.active, true, some (s.ownId.setWidth 16)⟩
      ∧ s.dupReported.mbi.list = [] ∧ s.dupReported.mbi.bus = .silent ∧ s.dupReported.mbi.permanentSilence = true
      ∧ s.dupReported.mbi.goodCount = 0 ∧ s.dupReported.mbi.silenceTimer = none
      ∧ (s.fault.register.busSilent.state ≠ .held →
          s.dupReported.fault.register.busSilent = s.fault.register.busSilent)
      ∧ ∃ earlier r later, s.dupReported.fault.history = earlier ++ r :: later ∧ later.length ≤ 2
          ∧ r.Tells (Source.dupId.cause (s.ownId.setWidth 16) .localOnly) s.conn.state (s.fault.tripCounter + 1)
            s.snapshot := by
  have hacts : s.markedSilent.actsOn .dupId = true := by simp [State.actsOn]
  have hclear : (s.markedSilent.fault.register.get .dupId).state = .clear := h
  have harmed := State.takeOnset_armed (s.ownId.setWidth 16) .localOnly hacts (.inl hclear) rfl
  have htakes := State.takeOnset_takes .dupId (s.ownId.setWidth 16) .localOnly s.markedSilent rfl
    ⟨hacts, .inl ⟨.inl hclear, rfl⟩⟩
  have hregister := State.takeOnset_register_armed .dupId (s.ownId.setWidth 16) .localOnly s.markedSilent hacts
    (.inl ⟨.inl hclear, rfl⟩)
  have hother (hb : s.fault.register.busSilent.state ≠ .held) := State.takeOnset_register_other .dupId .busSilent
    (s.ownId.setWidth 16) .localOnly s.markedSilent (by decide) hb
  obtain ⟨earlier, r, later, hhistory, hlater, htells⟩ := State.takeTrip_history
    (Source.dupId.tripCause (s.ownId.setWidth 16) .localOnly)
    ((s.markedSilent.setSource .dupId ⟨.active, true, some (s.ownId.setWidth 16)⟩).cancelSleep)
  have hsleep : (s.markedSilent.takeOnset .dupId (s.ownId.setWidth 16) .localOnly).conn.sleepPending = false := by
    rw [harmed]
    exact State.takeAction_sleepPending _ _ _ (State.cancelSleep_sleepPending _)
  have hhistory' : (s.markedSilent.takeOnset .dupId (s.ownId.setWidth 16) .localOnly).fault.history
      = earlier ++ r :: later := by
    rw [harmed]
    exact hhistory
  have htells' : r.Tells (Source.dupId.cause (s.ownId.setWidth 16) .localOnly) s.conn.state (s.fault.tripCounter + 1)
      s.snapshot := by
    rw [← Source.tripCause_eq]
    have hfault : s.markedSilent.fault = s.fault := rfl
    have hconn : s.markedSilent.conn = s.conn := rfl
    have hcharge : s.markedSilent.charge = s.charge := rfl
    simpa [State.snapshot, State.setSource_fault_eq, hfault, hconn, hcharge] using htells
  have hmbi : (s.markedSilent.takeOnset .dupId (s.ownId.setWidth 16) .localOnly).mbi.bus = .silent
      ∧ (s.markedSilent.takeOnset .dupId (s.ownId.setWidth 16) .localOnly).mbi.permanentSilence = true
      ∧ (s.markedSilent.takeOnset .dupId (s.ownId.setWidth 16) .localOnly).mbi.goodCount = 0
      ∧ (s.markedSilent.takeOnset .dupId (s.ownId.setWidth 16) .localOnly).mbi.silenceTimer = none := by
    simp [State.markedSilent]
  unfold State.dupReported
  generalize s.markedSilent.takeOnset .dupId (s.ownId.setWidth 16) .localOnly = b at *
  obtain ⟨htripped, hstate, hlockout, -⟩ := htakes
  obtain ⟨-, -, hclaim, -⟩ := id htripped
  rw [State.claimMeetsSilence_of_none (s := b.discardFrames) hclaim]
  obtain ⟨hbus, hmark, hgood, htimer⟩ := hmbi
  exact ⟨htripped, hstate.trans (if_pos (.inl rfl)), hlockout, hsleep, hregister, rfl, hbus, hmark, hgood, htimer,
    hother, earlier, r, later, hhistory', hlater, htells'⟩

/-- The whole effect, with what the second onset leaves of the first (R15, R129). -/
theorem State.duplicateId_fields {s : State} (h : s.fault.register.dupId.state = .clear) :
    s.duplicateId.HasTripped ∧ s.duplicateId.conn.state = .lockout ∧ s.duplicateId.fault.lockout = some 10000
      ∧ s.duplicateId.conn.sleepPending = false
      ∧ s.duplicateId.fault.register.dupId = ⟨.active, true, some (s.ownId.setWidth 16)⟩
      ∧ s.duplicateId.mbi.list = [] ∧ s.duplicateId.mbi.bus = .silent ∧ s.duplicateId.mbi.permanentSilence = true
      ∧ s.duplicateId.mbi.goodCount = 0 ∧ s.duplicateId.mbi.silenceTimer = none
      ∧ (∃ r ∈ s.duplicateId.fault.history, r.Tells (Source.dupId.cause (s.ownId.setWidth 16) .localOnly) s.conn.state
          (s.fault.tripCounter + 1) s.snapshot) := by
  obtain ⟨htripped, hstate, hlockout, hsleep, hregister, hlist, hbus, hmark, hgood, htimer, -, earlier, r, later, hhistory,
    hlater, htells⟩ := State.dupReported_fields h
  rw [State.duplicateId_eq]
  split
  · have hopen : s.dupReported.conn.state ≠ .closing := by simp [hstate]
    obtain ⟨-, -, hclaim, -⟩ := id htripped
    have hmbi := State.takeOnset_keepsMbi (src := .busSilent) (value := s.dupReported.tecValue) (reported := .localOnly) rfl
      (by simp [hbus]) hclaim
    have hkept := State.takeOnset_register_other .busSilent .dupId s.dupReported.tecValue .localOnly s.dupReported
      (by decide) (by rw [show s.dupReported.fault.register.get .dupId = _ from hregister]; nofun)
    refine ⟨State.takeOnset_hasTripped rfl htripped, State.takeOnset_lockout _ _ _ hstate,
      (State.takeOnset_lockoutWindow rfl hopen rfl).trans hlockout, ?_, hkept.trans hregister, by rw [hmbi, hlist],
      by rw [hmbi, hbus], by rw [hmbi, hmark], by rw [hmbi, hgood], by rw [hmbi, htimer], r,
      State.takeOnset_record rfl hopen hhistory hlater, htells⟩
    exact State.takeOnset_sleepPending rfl hopen hsleep
  · exact ⟨htripped, hstate, hlockout, hsleep, hregister, hlist, hbus, hmark, hgood, htimer, r, by simp [hhistory], htells⟩

/-- The second onset is a trip in LOCKOUT where BUS_SILENT was CLEAR and free (R129). -/
theorem State.duplicateId_busSilent {s : State} (h : s.fault.register.dupId.state = .clear) (hc : s.committed = true)
    (hbus : s.mbi.bus ≠ .silent) (hclear : s.fault.register.busSilent.state = .clear)
    (hfree : s.fault.portHolds.getLsbD 8 = false) :
    s.duplicateId.fault.register.busSilent = ⟨.active, true, some (BitVec.ofNat 16 s.mbi.tec)⟩
      ∧ ∃ r ∈ s.duplicateId.fault.history, r.code = .of .busSilent ∧ r.source = .busSilent ∧ r.scope = .localOnly
        ∧ r.value = BitVec.ofNat 16 s.mbi.tec ∧ r.connState = .lockout := by
  obtain ⟨-, hstate, -, -, -, -, -, -, -, -, hkept, -⟩ := State.dupReported_fields h
  have hframe : s.dupReported.committed = s.committed ∧ s.dupReported.mbi.tec = s.mbi.tec
      ∧ s.dupReported.fault.portHolds = s.fault.portHolds := by
    simp [State.dupReported, State.markedSilent]
  obtain ⟨hcommitted, htec, hports⟩ := hframe
  have hvalue : s.dupReported.tecValue = BitVec.ofNat 16 s.mbi.tec := by rw [State.tecValue, htec]
  have hclear' : (s.dupReported.fault.register.get .busSilent).state = .clear := by
    rw [show s.dupReported.fault.register.get .busSilent = _ from hkept (by simp [hclear])]
    exact hclear
  have hfree' : s.dupReported.isHeld .busSilent = false := by
    have hbit : s.dupReported.fault.portHolds.getLsbD (Source.busSilent.code - 1) = false := by
      rw [hports]
      exact hfree
    rw [State.isHeld, hbit]
    simp [Source.isOverCurrent]
  have hacts := State.actsOn_of_committed (s := s.dupReported) .busSilent (hcommitted.trans hc)
  rw [State.duplicateId_eq, if_pos hbus, hvalue]
  refine ⟨State.takeOnset_register_armed .busSilent _ .localOnly s.dupReported hacts (.inl ⟨.inl hclear', hfree'⟩), ?_⟩
  obtain ⟨-, -, -, -, -, ⟨earlier, r, later, -, hhistory, ⟨hcode, hsource, hscope, hrvalue, hbefore, -⟩, -⟩, -⟩ :=
    State.takeOnset_takes .busSilent (BitVec.ofNat 16 s.mbi.tec) .localOnly s.dupReported rfl
      ⟨hacts, .inl ⟨.inl hclear', hfree'⟩⟩
  exact ⟨r, by rw [hhistory]; simp, hcode, hsource, hscope, hrvalue, hbefore.trans hstate⟩

/-- Settles O21: `duplicateId` on the state that has accepted the frame. -/
theorem duplicateIdSilencesTheStation : Obligations.DuplicateIdSilencesTheStation := by
  intro f s hhears hclear hsafe
  have hrun : s.power.phase = .run := by
    simp only [State.hears, Bool.and_eq_true, decide_eq_true_eq] at hhears
    exact hhears.1.1
  have heq := s.receiving.acceptFrame_eq s.ownId
  have hregister {src : Source} (hne : src ≠ .rxDegraded) :
      (s.accepting s.ownId).fault.register.get src = s.fault.register.get src := by
    rw [State.accepting, State.acceptFrame_register hne]
    simp
  have hfields : (s.accepting s.ownId).conn = s.conn ∧ (s.accepting s.ownId).fault.tripCounter = s.fault.tripCounter
      ∧ (s.accepting s.ownId).fault.portHolds = s.fault.portHolds ∧ (s.accepting s.ownId).snapshot = s.snapshot
      ∧ (s.accepting s.ownId).mbi.recCount = s.mbi.recCount - 1 := by
    rw [State.accepting, heq]
    simp [State.snapshot]
  obtain ⟨hconn, hcounter, hports, hsnapshot, hrec⟩ := hfields
  have hclear' : (s.accepting s.ownId).fault.register.dupId.state = .clear := by
    rw [show (s.accepting s.ownId).fault.register.dupId = _ from hregister (src := .dupId) (by decide)]
    exact hclear
  have hframe : (s.accepting s.ownId).ownId = s.ownId ∧ (s.accepting s.ownId).committed = s.committed
      ∧ (s.accepting s.ownId).mbi.bus = s.mbi.bus ∧ (s.accepting s.ownId).mbi.tec = s.mbi.tec := by simp
  obtain ⟨hown, hcommitted, hbus, htec⟩ := hframe
  obtain ⟨htripped, hstate, hlockout, hsleep, hdup, hlist, hsilent, hmark, hgood, htimer, hrecord⟩ :=
    State.duplicateId_fields hclear'
  have hbusSilent := State.duplicateId_busSilent hclear'
  rw [hcommitted, hbus, htec, hports,
    show (s.accepting s.ownId).fault.register.busSilent = s.fault.register.busSilent from
      hregister (src := .busSilent) (by decide)] at hbusSilent
  rw [hown, hconn, hcounter, hsnapshot] at hrecord
  have hpath : (s.accepting s.ownId).duplicateId.conn.path = .none := by
    refine htripped.path (State.duplicateId_changes (by simpa using hrun)) ?_
    unfold State.PathSafe at hsafe ⊢
    rwa [hconn]
  have hexec : exec (f.received s.ownId) s = .next (s.accepting s.ownId).duplicateId := by
    rw [exec_received_own hhears, conclude_of_not_active _ _ (by simp [hsilent])]
  obtain ⟨-, hswitches, hclaim, hevent⟩ := htripped
  refine ⟨_, hexec, hrecord, hbusSilent, hsilent, hmark, hlist, hgood, htimer, ?_, ?_, by rw [hdup, hown], hstate, hpath,
    hswitches, hclaim, hlockout, hevent, hsleep, ?_, ?_, ?_, ?_, ?_⟩
  · rw [← hrec]
    simp
  all_goals simp

end Sys2Proof.Machine
end

section
/-! PROOF. The entry into SILENT at TEC 128 (R15, R16, R50, R60, R129, R138, R153, R154). -/

namespace Sys2Proof.Machine

/-! ## The list discarded and the claim told -/

/-- The list is discarded and a claim in progress ends (R15, R50, R60). -/
def State.emptied (s : State) : State := s.discardFrames.claimMeetsSilence

theorem State.claimMeetsSilence_mbi {s : State} (h : s.mbi.bus ≠ .active) : s.claimMeetsSilence.mbi = s.mbi := by
  have hfails (o : ClaimOutcome) : (s.failClaim o).mbi = s.mbi := by
    obtain ⟨hmbi, -⟩ := State.changeConn_keepsMbi .isolated .none
      (s := ((s.endClaim o).startHoldOff).setEvent .claimAbandoned) (by decide) h
    exact hmbi
  unfold State.claimMeetsSilence
  split
  · rfl
  · split <;> exact hfails _

theorem State.claimMeetsSilence_stay (s : State) : s.EventsStay s.claimMeetsSilence := by
  unfold State.claimMeetsSilence
  split
  · exact .refl s
  · split <;> exact State.failClaim_stay _ s

/-- A claim in progress goes back to ISOLATED. -/
theorem State.claimMeetsSilence_state (s : State) : s.claimMeetsSilence.conn.state = s.conn.state
    ∨ s.closure.claim.isSome = true ∧ s.claimMeetsSilence.conn.state = .isolated := by
  have hfails (o : ClaimOutcome) : (s.failClaim o).conn.state = .isolated := by simp [State.failClaim]
  cases hc : s.closure.claim with
  | none => rw [State.claimMeetsSilence_of_none hc]; exact .inl rfl
  | some c =>
    refine .inr ⟨rfl, ?_⟩
    unfold State.claimMeetsSilence
    simp only [hc]
    cases c.phase <;> exact hfails _

theorem State.emptied_of_none {s : State} (h : s.closure.claim = none) : s.emptied = s.discardFrames :=
  State.claimMeetsSilence_of_none (s := s.discardFrames) h

theorem State.emptied_mbi {s : State} (h : s.mbi.bus ≠ .active) : s.emptied.mbi = s.mbi.discardList :=
  State.claimMeetsSilence_mbi (s := s.discardFrames) h

@[simp] theorem State.emptied_frame (s : State) :
    s.emptied.ownId = s.ownId ∧ s.emptied.config = s.config ∧ s.emptied.committed = s.committed
      ∧ s.emptied.roster = s.roster ∧ s.emptied.charge = s.charge ∧ s.emptied.meas = s.meas
      ∧ s.emptied.power = s.power ∧ s.emptied.port.line = s.port.line
      ∧ s.emptied.port.resetPending = s.port.resetPending ∧ s.emptied.conn.sleepPending = s.conn.sleepPending
      ∧ s.emptied.fault = s.fault ∧ s.emptied.closure.claim = none := by
  simp [State.emptied, State.claimMeetsSilence_claim]

theorem State.emptied_stay (s : State) : s.EventsStay s.emptied := State.claimMeetsSilence_stay s.discardFrames

theorem State.HasTripped.emptied {s : State} (h : s.HasTripped) :
    s.emptied.HasTripped ∧ s.emptied.conn = s.conn := by
  obtain ⟨-, -, hclaim, -⟩ := id h
  rw [State.emptied_of_none hclaim]
  exact ⟨h, rfl⟩

/-! ## The two orders -/

/-- SILENT entered, before BUS_SILENT is reported and the list discarded. -/
def State.silentBegun (k : FrameKind) (s : State) : State :=
  { s.attemptEnded k with
    mbi := { (s.attemptEnded k).mbi with bus := .silent, goodCount := 0, silenceTimer := some 2000 } }

/-- TEC after the attempt, as BUS_SILENT's value. -/
def State.failedTec (s : State) : Half := BitVec.ofNat 16 (min 255 (s.mbi.tec + 8))

theorem State.silentBegun_tec (k : FrameKind) (s : State) : (s.silentBegun k).mbi.tec = min 255 (s.mbi.tec + 8) := by
  simp [State.silentBegun, State.attemptEnded, State.attemptJudged_tec]

section Orders

variable {k : FrameKind} {s : State}

theorem exec_silence_faultFirst (hrun : s.power.phase = .run) (hline : s.mbi.onLine = some k) (htec : 120 ≤ s.mbi.tec) :
    exec (.txAttemptFailed .faultFirst) s
      = conclude s ((s.silentBegun k).takeOnset .busSilent s.failedTec .localOnly).emptied := by
  have hvalue : (s.silentBegun k).tecValue = s.failedTec := by
    rw [State.tecValue, State.silentBegun_tec, State.failedTec]
  rw [exec_txAttemptFailed .faultFirst hrun hline, State.attemptFailed_eq, if_pos htec, ← hvalue]
  rfl

theorem exec_silence_controllerFirst (hrun : s.power.phase = .run) (hline : s.mbi.onLine = some k)
    (htec : 120 ≤ s.mbi.tec) : exec (.txAttemptFailed .controllerFirst) s
      = conclude s (if (s.silentBegun k).emptied.sleepDue then (s.silentBegun k).emptied.enterSleep
          else (s.silentBegun k).emptied.takeOnset .busSilent s.failedTec .localOnly) := by
  have hvalue : (s.silentBegun k).tecValue = s.failedTec := by
    rw [State.tecValue, State.silentBegun_tec, State.failedTec]
  rw [exec_txAttemptFailed .controllerFirst hrun hline, State.attemptFailed_eq, if_pos htec, ← hvalue]
  rfl

/-- What holds of the state in which BUS_SILENT is reported, whichever comes first. -/
def State.SilenceBegins (s x : State) : Prop :=
  x.mbi.bus = .silent ∧ x.mbi.tec = min 255 (s.mbi.tec + 8) ∧ x.mbi.tx = .none ∧ x.mbi.goodCount = 0
    ∧ x.mbi.silenceTimer = some 2000 ∧ x.fault = s.fault ∧ x.ownId = s.ownId ∧ x.config = s.config
    ∧ x.committed = s.committed ∧ x.roster = s.roster ∧ x.charge = s.charge ∧ x.meas = s.meas ∧ x.power = s.power
    ∧ x.port.line = s.port.line ∧ x.port.resetPending = s.port.resetPending
    ∧ x.conn.sleepPending = s.conn.sleepPending

/-- Where the connection stands then: unmoved, or ISOLATED behind a claim that has ended. -/
def State.ClaimMayHaveEnded (s x : State) : Prop :=
  x.conn.state = s.conn.state ∨ s.closure.claim.isSome = true ∧ x.conn.state = .isolated

theorem State.attemptJudged_frame (k : FrameKind) (s : State) :
    (s.attemptJudged k).fault = s.fault ∧ (s.attemptJudged k).ownId = s.ownId ∧ (s.attemptJudged k).config = s.config
      ∧ (s.attemptJudged k).committed = s.committed ∧ (s.attemptJudged k).roster = s.roster
      ∧ (s.attemptJudged k).charge = s.charge ∧ (s.attemptJudged k).meas = s.meas
      ∧ (s.attemptJudged k).power = s.power ∧ (s.attemptJudged k).port.line = s.port.line
      ∧ (s.attemptJudged k).port.resetPending = s.port.resetPending
      ∧ (s.attemptJudged k).conn.sleepPending = s.conn.sleepPending ∧ (s.attemptJudged k).mbi.tx = .none := by
  unfold State.attemptJudged
  split <;> simp [State.attemptCounted]

/-- The judgement of the frame ends a claim whose CLAIM is dropped, and moves the connection in no other case. -/
theorem State.attemptJudged_state (k : FrameKind) (s : State) : s.ClaimMayHaveEnded (s.attemptJudged k)
    ∧ ((s.attemptJudged k).closure.claim.isSome = true → s.closure.claim.isSome = true) := by
  have hfails (u : State) (o : ClaimOutcome) : (u.failClaim o).conn.state = .isolated ∧ (u.failClaim o).closure.claim = none :=
    ⟨by simp [State.failClaim], State.failClaim_claim _ _⟩
  unfold State.attemptJudged
  split
  · exact ⟨.inl rfl, id⟩
  · unfold State.countFailure
    split
    · exact ⟨.inl rfl, id⟩
    · dsimp only
      split
      · split
        · next hc =>
          obtain ⟨hstate, hclaim⟩ := hfails (({ s.attemptCounted with mbi := { s.attemptCounted.mbi with
            list := removeKind .claim s.attemptCounted.mbi.list } } : State).setEvent .txDropped) .dropped
          exact ⟨.inr ⟨by rw [show s.closure.claim = _ from hc]; rfl, hstate⟩, fun h => by rw [hclaim] at h; cases h⟩
        · exact ⟨.inl rfl, id⟩
      · exact ⟨.inl rfl, id⟩

theorem State.silentBegun_begins (k : FrameKind) (s : State) :
    s.SilenceBegins (s.silentBegun k) ∧ s.ClaimMayHaveEnded (s.silentBegun k) := by
  obtain ⟨hfault, hown, hconfig, hcommitted, hroster, hcharge, hmeas, hpower, hline, hreset, hsleep, htx⟩ :=
    State.attemptJudged_frame k s
  refine ⟨⟨rfl, State.silentBegun_tec k s, ?_, rfl, rfl, hfault, hown, hconfig, hcommitted, hroster, hcharge, hmeas, hpower,
    hline, hreset, hsleep⟩, (State.attemptJudged_state k s).1⟩
  exact (Mbi.releaseHeld_frame (s.attemptJudged k).mbi).2.2.1.trans htx

theorem State.emptied_begins (k : FrameKind) (s : State) :
    s.SilenceBegins (s.silentBegun k).emptied ∧ s.ClaimMayHaveEnded (s.silentBegun k).emptied := by
  obtain ⟨⟨hbus, htec, -, hgood, htimer, hrest⟩, hstate⟩ := State.silentBegun_begins k s
  have hmbi := State.emptied_mbi (s := s.silentBegun k) (by simp [hbus])
  refine ⟨⟨by rw [hmbi]; exact hbus, by rw [hmbi]; exact htec, by rw [hmbi]; rfl, by rw [hmbi]; exact hgood,
    by rw [hmbi]; exact htimer, by simpa using hrest⟩, ?_⟩
  rcases State.claimMeetsSilence_state (s.silentBegun k).discardFrames with hsame | ⟨hsome, hisolated⟩
  · rcases hstate with hs | ⟨hs, hi⟩
    · exact .inl (hsame.trans hs)
    · exact .inr ⟨hs, hsame.trans hi⟩
  · exact .inr ⟨(State.attemptJudged_state k s).2 hsome, hisolated⟩

end Orders

/-! ## BUS_SILENT reported -/

section Reported

variable {s x : State}

theorem State.SilenceBegins.isHeld (hx : s.SilenceBegins x) : x.isHeld .busSilent = s.fault.portHolds.getLsbD 8 := by
  obtain ⟨-, -, -, -, -, hfault, -⟩ := hx
  unfold State.isHeld
  rw [hfault]
  cases hbit : s.fault.portHolds.getLsbD 8 <;> simp [Source.code, Source.isOverCurrent, Source.classB, ← hbit]

/-- Armed, the report is a trip of its own with TEC as its value (R129, R138), and cancels a pending sleep (R154). -/
theorem State.SilenceBegins.trips (hx : s.SilenceBegins x) (hc : s.committed = true)
    (hclear : s.fault.register.busSilent.state = .clear) (hfree : s.fault.portHolds.getLsbD 8 = false) :
    x.TakesTrip (Source.busSilent.cause s.failedTec .localOnly) (x.takeOnset .busSilent s.failedTec .localOnly)
      ∧ (x.takeOnset .busSilent s.failedTec .localOnly).fault.register.busSilent = ⟨.active, true, some s.failedTec⟩
      ∧ (x.takeOnset .busSilent s.failedTec .localOnly).conn.sleepPending = false
      ∧ (s.conn.sleepPending = true →
          (x.takeOnset .busSilent s.failedTec .localOnly).hasEvent .sleepCancelled = true) := by
  have hheld := hx.isHeld.trans hfree
  obtain ⟨-, -, -, -, -, hfault, -, -, hcommitted, -, -, -, -, -, -, hsleep⟩ := hx
  have hacts := State.actsOn_of_committed (s := x) .busSilent (hcommitted.trans hc)
  have hclear' : (x.fault.register.get .busSilent).state = .clear := by rw [hfault]; exact hclear
  have harmed := State.takeOnset_armed s.failedTec .localOnly hacts (.inl hclear') hheld
  refine ⟨State.takeOnset_takes _ _ _ _ rfl ⟨hacts, .inl ⟨.inl hclear', hheld⟩⟩,
    State.takeOnset_register_armed _ _ _ _ hacts (.inl ⟨.inl hclear', hheld⟩), ?_, fun hpending => ?_⟩
  · rw [harmed]
    exact State.takeAction_sleepPending _ _ _ (State.cancelSleep_sleepPending _)
  · rw [harmed]
    exact State.takeAction_stay _ _ _ _ _ (State.cancelSleep_event (by simpa [hsleep] using hpending))

/-- Covered by a hold of the port, it is HELD (R128, R130). -/
theorem State.SilenceBegins.held (hx : s.SilenceBegins x) (hc : s.committed = true)
    (hclear : s.fault.register.busSilent.state = .clear) (hcovered : s.fault.portHolds.getLsbD 8 = true) :
    (x.takeOnset .busSilent s.failedTec .localOnly).fault.register.busSilent.state = .held
      ∧ (x.takeOnset .busSilent s.failedTec .localOnly).hasEvent .heldFault = true
      ∧ (x.takeOnset .busSilent s.failedTec .localOnly).conn.sleepPending = s.conn.sleepPending
      ∧ (x.takeOnset .busSilent s.failedTec .localOnly).fault.tripCounter = s.fault.tripCounter := by
  have hheld := hx.isHeld.trans hcovered
  obtain ⟨-, -, -, -, -, hfault, -, -, hcommitted, -, -, -, -, -, -, hsleep⟩ := hx
  have hacts := State.actsOn_of_committed (s := x) .busSilent (hcommitted.trans hc)
  have hclear' : (x.fault.register.get .busSilent).state = .clear := by rw [hfault]; exact hclear
  rw [State.takeOnset_covered s.failedTec .localOnly hacts (.inl hclear') hheld]
  refine ⟨?_, State.hasEvent_setEvent_self _ _, by simpa using hsleep, by simp [hfault]⟩
  have hget : (x.setSource .busSilent ⟨.held, true, some s.failedTec⟩).fault.register.get .busSilent
      = ⟨.held, true, some s.failedTec⟩ := by
    rw [State.setSource_register, FaultRegister.get_set_self]
  exact congrArg SourceRecord.state hget

/-- The trip's record and the state it leads to, told from the state before the attempt. -/
theorem State.SilenceBegins.records (hx : s.SilenceBegins x) (hended : s.ClaimMayHaveEnded x) {u : State}
    (hu : x.TakesTrip (Source.busSilent.cause s.failedTec .localOnly) u) :
    (∃ before, (s.closure.claim = none → before = s.conn.state) ∧ ∃ r ∈ u.fault.history,
        r.Tells (Source.busSilent.cause s.failedTec .localOnly) before (s.fault.tripCounter + 1) s.snapshot)
      ∧ ((s.closure.claim.isSome = true → s.conn.state = .claiming) →
          u.conn.state = if s.conn.state = .lockout then .lockout else .tripped)
      ∧ (s.fault.tripCounter < 65535 → s.fault.tripCounter < u.fault.tripCounter) := by
  have hcount := hu.counts
  obtain ⟨-, -, -, -, -, hfault, -, -, -, -, hcharge, -⟩ := hx
  obtain ⟨-, hstate, -, -, -, ⟨earlier, r, later, -, hhistory, htells, -⟩, -⟩ := hu
  have hsnapshot : x.snapshot = s.snapshot := by rw [State.snapshot, hcharge]; rfl
  rw [hfault] at htells hcount
  rw [hsnapshot] at htells
  refine ⟨⟨x.conn.state, fun hnone => ?_, r, by rw [hhistory]; simp, htells⟩, fun hclaiming => ?_, hcount⟩
  · exact hended.resolve_right fun h => by simp [hnone] at h
  · have hlockout : x.conn.state = .lockout ↔ s.conn.state = .lockout := by
      rcases hended with hsame | ⟨hsome, hisolated⟩
      · rw [hsame]
      · simp [hisolated, hclaiming hsome]
    rw [hstate]
    exact if_congr (by simp [Source.cause, hlockout]) rfl rfl

end Reported

/-! ## The end of the entry -/

/-- What holds at the end of every entry into SILENT but one that goes on to SLEEP. -/
def State.SilenceEntered (s t : State) : Prop :=
  t.mbi.bus = .silent ∧ t.mbi.tec = min 255 (s.mbi.tec + 8) ∧ t.mbi.list = [] ∧ t.mbi.tx = .none
    ∧ t.mbi.heldStatus = none ∧ t.mbi.heldTrip = none ∧ t.mbi.withdrawal = none
    ∧ t.mbi.goodCount = 0 ∧ t.mbi.silenceTimer = some 2000
    ∧ t.closure.claim = none ∧ t.fault.register.busSilent.present = true
    ∧ t.ownId = s.ownId ∧ t.config = s.config ∧ t.committed = s.committed ∧ t.roster = s.roster
    ∧ t.charge = s.charge ∧ t.meas = s.meas ∧ t.power = s.power ∧ t.port.line = s.port.line
    ∧ t.port.resetPending = s.port.resetPending

section Ends

variable {s x : State}

theorem State.SilenceBegins.faultFirst (hx : s.SilenceBegins x) :
    s.SilenceEntered (x.takeOnset .busSilent s.failedTec .localOnly).emptied := by
  obtain ⟨hbus, htec, -, hgood, htimer, -, hown, hconfig, hcommitted, hroster, hcharge, hmeas, hpower, hline, hreset, -⟩ :=
    hx
  have hkept : (x.takeOnset .busSilent s.failedTec .localOnly).mbi.bus = .silent
      ∧ (x.takeOnset .busSilent s.failedTec .localOnly).mbi.tec = min 255 (s.mbi.tec + 8)
      ∧ (x.takeOnset .busSilent s.failedTec .localOnly).mbi.goodCount = 0
      ∧ (x.takeOnset .busSilent s.failedTec .localOnly).mbi.silenceTimer = some 2000 := by
    simp [hbus, htec, hgood, htimer]
  obtain ⟨hbus', htec', hgood', htimer'⟩ := hkept
  have hmbi := State.emptied_mbi (s := x.takeOnset .busSilent s.failedTec .localOnly) (by simp [hbus])
  have hfault : (x.takeOnset .busSilent s.failedTec .localOnly).emptied.fault
      = (x.takeOnset .busSilent s.failedTec .localOnly).fault := by simp
  have hpresent := State.takeOnset_present .busSilent s.failedTec .localOnly x
  refine ⟨by rw [hmbi]; exact hbus', by rw [hmbi]; exact htec', by rw [hmbi]; rfl, by rw [hmbi]; rfl, by rw [hmbi]; rfl,
    by rw [hmbi]; rfl, by rw [hmbi]; rfl, by rw [hmbi]; exact hgood', by rw [hmbi]; exact htimer', by simp,
    by rw [hfault]; exact hpresent, ?_⟩
  simp [hown, hconfig, hcommitted, hroster, hcharge, hmeas, hpower, hline, hreset]

theorem State.SilenceBegins.controllerFirst {y : State} (hy : y.mbi.bus ≠ .active) (hx : s.SilenceBegins y.emptied) :
    s.SilenceEntered (y.emptied.takeOnset .busSilent s.failedTec .localOnly) := by
  obtain ⟨hbus, htec, -, hgood, htimer, -, hown, hconfig, hcommitted, hroster, hcharge, hmeas, hpower, hline, hreset, -⟩ :=
    hx
  have hclaim : y.emptied.closure.claim = none := by simp
  have hmbi := State.takeOnset_keepsMbi (src := .busSilent) (value := s.failedTec) (reported := .localOnly) (s := y.emptied)
    rfl (by simp [hbus]) hclaim
  have hempty := State.emptied_mbi hy
  have hpresent := State.takeOnset_present .busSilent s.failedTec .localOnly y.emptied
  generalize y.emptied = z at *
  refine ⟨by rw [hmbi, hbus], by rw [hmbi, htec], by rw [hmbi, hempty]; rfl, by rw [hmbi, hempty]; rfl,
    by rw [hmbi, hempty]; rfl, by rw [hmbi, hempty]; rfl, by rw [hmbi, hempty]; rfl, by rw [hmbi, hgood],
    by rw [hmbi, htimer], State.takeOnset_noClaim _ _ _ hclaim, hpresent, ?_⟩
  simp [hown, hconfig, hcommitted, hroster, hcharge, hmeas, hpower, hline, hreset]

/-- What an armed report of BUS_SILENT leaves at the end of the entry. -/
def State.SilenceTrips (s t : State) : Prop :=
  t.fault.register.busSilent = ⟨.active, true, some s.failedTec⟩ ∧ t.HasTripped ∧ t.conn.sleepPending = false
    ∧ (s.conn.sleepPending = true → t.hasEvent .sleepCancelled = true)
    ∧ (∃ before, (s.closure.claim = none → before = s.conn.state) ∧ ∃ r ∈ t.fault.history,
        r.Tells (Source.busSilent.cause s.failedTec .localOnly) before (s.fault.tripCounter + 1) s.snapshot)
    ∧ ((s.closure.claim.isSome = true → s.conn.state = .claiming) →
        t.conn.state = if s.conn.state = .lockout then .lockout else .tripped)
    ∧ (s.fault.tripCounter < 65535 → s.fault.tripCounter < t.fault.tripCounter)

/-- What a report leaves that a hold of the port covers. -/
def State.SilenceHeld (s t : State) : Prop :=
  t.fault.register.busSilent.state = .held ∧ t.hasEvent .heldFault = true
    ∧ t.conn.sleepPending = s.conn.sleepPending ∧ t.fault.tripCounter = s.fault.tripCounter

/-- The entry into SILENT with its report taken. -/
def State.SilenceOutcome (s t : State) : Prop :=
  s.SilenceEntered t
    ∧ (s.committed = true → s.fault.register.busSilent.state = .clear → s.fault.portHolds.getLsbD 8 = false →
        s.SilenceTrips t)
    ∧ (s.committed = true → s.fault.register.busSilent.state = .clear → s.fault.portHolds.getLsbD 8 = true →
        s.SilenceHeld t)

/-- The order of R154 in which the fault comes first. -/
theorem State.SilenceBegins.outcome_faultFirst (hx : s.SilenceBegins x) (hended : s.ClaimMayHaveEnded x) :
    s.SilenceOutcome (x.takeOnset .busSilent s.failedTec .localOnly).emptied := by
  have hstay := State.emptied_stay (x.takeOnset .busSilent s.failedTec .localOnly)
  have hfault : (x.takeOnset .busSilent s.failedTec .localOnly).emptied.fault
      = (x.takeOnset .busSilent s.failedTec .localOnly).fault := by simp
  refine ⟨hx.faultFirst, fun hc hclear hfree => ?_, fun hc hclear hcovered => ?_⟩
  · obtain ⟨htakes, hregister, hsleep, hcancelled⟩ := hx.trips hc hclear hfree
    obtain ⟨hrecord, hstate, hcount⟩ := hx.records hended htakes
    obtain ⟨htripped, hconn⟩ := State.HasTripped.emptied htakes.1
    unfold State.SilenceTrips
    rw [hfault, hconn]
    exact ⟨hregister, htripped, hsleep, fun hpending => hstay _ (hcancelled hpending), hrecord, hstate, hcount⟩
  · obtain ⟨hstate, hevent, hsleep, hcount⟩ := hx.held hc hclear hcovered
    unfold State.SilenceHeld
    rw [hfault]
    exact ⟨hstate, hstay _ hevent, by simpa using hsleep, hcount⟩

/-- The order in which the controller comes first. -/
theorem State.SilenceBegins.outcome_controllerFirst {y : State} (hy : y.mbi.bus ≠ .active)
    (hx : s.SilenceBegins y.emptied) (hended : s.ClaimMayHaveEnded y.emptied) :
    s.SilenceOutcome (y.emptied.takeOnset .busSilent s.failedTec .localOnly) := by
  refine ⟨hx.controllerFirst hy, fun hc hclear hfree => ?_, hx.held⟩
  obtain ⟨htakes, hregister, hsleep, hcancelled⟩ := hx.trips hc hclear hfree
  obtain ⟨hrecord, hstate, hcount⟩ := hx.records hended htakes
  exact ⟨hregister, htakes.1, hsleep, hcancelled, hrecord, hstate, hcount⟩

/-- An entry into SILENT is the end of its command. -/
theorem State.SilenceEntered.ends {t : State} (h : s.SilenceEntered t) : conclude s t = .next t :=
  conclude_of_not_active _ _ (by simp [h.1])

end Ends

theorem State.sleepDue_iff_free {s x : State} (hrun : s.power.phase = .run) (hpower : x.power = s.power)
    (hline : x.port.line = s.port.line) (hreset : x.port.resetPending = s.port.resetPending)
    (hsleep : x.conn.sleepPending = true) (hlist : x.mbi.list = []) :
    x.sleepDue = true ↔ s.port.line = .released ∧ s.port.resetPending = false ∧ s.power.check ≠ .running := by
  simp [State.sleepDue, hpower, hrun, hline, hreset, hsleep, hlist, and_assoc]

section Rows

variable {k : FrameKind} {s : State}

theorem exec_faultFirst_outcome (hrun : s.power.phase = .run) (hline : s.mbi.onLine = some k) (htec : 120 ≤ s.mbi.tec) :
    ∃ t, exec (.txAttemptFailed .faultFirst) s = .next t ∧ s.SilenceOutcome t := by
  obtain ⟨hbegun, hended⟩ := State.silentBegun_begins k s
  have houtcome := hbegun.outcome_faultFirst hended
  exact ⟨_, (exec_silence_faultFirst hrun hline htec).trans houtcome.1.ends, houtcome⟩

theorem exec_controllerFirst_outcome (hrun : s.power.phase = .run) (hline : s.mbi.onLine = some k)
    (htec : 120 ≤ s.mbi.tec) (hawake : ¬ (s.silentBegun k).emptied.sleepDue = true) :
    ∃ t, exec (.txAttemptFailed .controllerFirst) s = .next t ∧ s.SilenceOutcome t := by
  obtain ⟨hempty, hended⟩ := State.emptied_begins k s
  have houtcome := hempty.outcome_controllerFirst (y := s.silentBegun k) (by simp [State.silentBegun]) hended
  have hexec := exec_silence_controllerFirst hrun hline htec
  rw [if_neg hawake] at hexec
  exact ⟨_, hexec.trans houtcome.1.ends, houtcome⟩

/-- Whether the pending sleep is entered with the list empty: by the port and the self-check alone. -/
theorem State.emptied_sleepDue_iff (hrun : s.power.phase = .run) (hpending : s.conn.sleepPending = true) :
    (s.silentBegun k).emptied.sleepDue = true
      ↔ s.port.line = .released ∧ s.port.resetPending = false ∧ s.power.check ≠ .running := by
  obtain ⟨⟨-, -, -, -, -, -, -, -, -, -, -, -, hpower, hline, hreset, hsleep⟩, -⟩ := State.emptied_begins k s
  have hlist := State.emptied_mbi (s := s.silentBegun k) (by simp [State.silentBegun])
  exact State.sleepDue_iff_free hrun hpower hline hreset (hsleep.trans hpending) (by rw [hlist]; rfl)

/-- The part sleeps within the command (R153, R154). -/
theorem exec_controllerFirst_sleeps (hrun : s.power.phase = .run) (hline : s.mbi.onLine = some k) (htec : 120 ≤ s.mbi.tec)
    (hdue : (s.silentBegun k).emptied.sleepDue = true) :
    ∃ t, exec (.txAttemptFailed .controllerFirst) s = .next t ∧ t.power.phase = .sleep ∧ t.mbi.bus = .off
      ∧ t.mbi.list = [] ∧ t.conn.sleepPending = false ∧ t.power.wakeLineArmed = true
      ∧ (s.committed = true → t.det.wakeCurrentArmed = true)
      ∧ t.fault.tripCounter = s.fault.tripCounter ∧ t.fault.history = s.fault.history ∧ t.charge = s.charge
      ∧ t.config = s.config ∧ t.ownId = s.ownId := by
  obtain ⟨⟨-, -, -, -, -, hfault, hown, hconfig, hcommitted, -, hcharge, -⟩, -⟩ := State.emptied_begins k s
  have hexec := exec_silence_controllerFirst hrun hline htec
  rw [if_pos hdue, conclude_of_not_active _ _ (by simp [State.enterSleep, Mbi.offState])] at hexec
  generalize (s.silentBegun k).emptied = x at *
  refine ⟨_, hexec, rfl, rfl, rfl, rfl, rfl, fun hc => hcommitted.trans hc, ?_, ?_, hcharge, hconfig, hown⟩
  · rw [← hfault]
    rfl
  · rw [← hfault]
    rfl

end Rows

/-- Settles O17: `SilenceOutcome` in either order, or the sleep that comes first. -/
theorem silenceAtTec128 : Obligations.SilenceAtTec128 := by
  refine ⟨fun k race s hrun hline htec hawake hclaiming => ?enters, fun k s hrun hline htec hpending hc hclear => ?asleep⟩
  case enters =>
    intro tec recorded
    obtain ⟨t, hexec, ⟨hbus, htec', hlist, htx, hstatus, htrip, hwithdrawal, hgood, htimer, hclaim, hpresent, hown, hconfig,
        hcommitted, hroster, hcharge, hmeas, -⟩, htrips, hheld⟩ :
        ∃ t, exec (.txAttemptFailed race) s = .next t ∧ s.SilenceOutcome t := by
      cases race with
      | faultFirst => exact exec_faultFirst_outcome hrun hline htec
      | controllerFirst =>
        refine exec_controllerFirst_outcome hrun hline htec fun hdue => ?_
        obtain ⟨⟨-, -, -, -, -, -, -, -, -, -, -, -, -, -, -, hsleep⟩, -⟩ := State.emptied_begins k s
        rw [State.sleepDue, hsleep, hawake] at hdue
        simp at hdue
    refine ⟨t, hexec, hbus, htec', hlist, htx, hstatus, htrip, hwithdrawal, hgood, htimer, hclaim, hpresent, hown, hconfig,
      hcommitted, hroster, hcharge, hmeas, fun hc hclear hfree => ?_, fun hc hclear hcovered => ?_⟩
    · obtain ⟨hregister, htripped, -, -, hrecord, hstate, -⟩ := htrips hc hclear hfree
      exact ⟨hregister, htripped, hstate hclaiming, hrecord⟩
    · obtain ⟨hstate, hevent, -⟩ := hheld hc hclear hcovered
      exact ⟨hstate, hevent⟩
  case asleep =>
    intro tec free trips sleeps
    have hdue := State.emptied_sleepDue_iff (k := k) hrun hpending
    have htrips {t : State} (hfree : s.fault.portHolds.getLsbD 8 = false) (h : s.SilenceOutcome t) : trips t := by
      obtain ⟨⟨hbus, -, hlist, -, -, -, -, -, -, -, -, -, -, -, -, -, -, hpower, -⟩, htrips, -⟩ := h
      obtain ⟨hregister, htripped, hsleep, hcancelled, ⟨before, -, hrecord⟩, -, hcount⟩ := htrips hc hclear hfree
      exact ⟨by rw [hpower]; exact hrun, hbus, hlist, hsleep, hcancelled hpending, htripped, hregister, ⟨before, hrecord⟩,
        hcount⟩
    have hsleeps (hfree : free) : ∃ t, exec (.txAttemptFailed .controllerFirst) s = .next t ∧ sleeps t := by
      obtain ⟨t, hexec, hphase, hbus, hlist, hsleep, hline', hcurrent, hrest⟩ :=
        exec_controllerFirst_sleeps hrun hline htec (hdue.2 hfree)
      exact ⟨t, hexec, hphase, hbus, hlist, hsleep, hline', hcurrent hc, hrest⟩
    obtain ⟨t, hexec, houtcome⟩ := exec_faultFirst_outcome hrun hline htec
    refine ⟨fun hfree => ⟨⟨t, hexec, htrips hfree houtcome⟩, hsleeps, fun hbarred => ?barred⟩,
      fun hcovered => ⟨⟨t, hexec, ?held⟩, hsleeps⟩⟩
    case barred =>
      obtain ⟨t, hexec, houtcome⟩ := exec_controllerFirst_outcome hrun hline htec fun h => hbarred (hdue.1 h)
      exact ⟨t, hexec, htrips hfree houtcome⟩
    case held =>
      obtain ⟨⟨hbus, -, hlist, -, -, -, -, -, -, -, -, -, -, -, -, -, -, hpower, hport, hreset⟩, -, hheld⟩ := houtcome
      obtain ⟨hstate, -, hsleep, hcount⟩ := hheld hc hclear hcovered
      have hpending' := hsleep.trans hpending
      exact ⟨hstate, by rw [hpower]; exact hrun, hbus, hlist, hpending',
        (State.sleepDue_iff_free hrun hpower hport hreset hpending' hlist).2, hcount⟩

end Sys2Proof.Machine
end

section
/-! PROOF. CONFIG_COMMIT (R104, R119, R129, R169, R170). -/

namespace Sys2Proof.Machine

/-! ## The tests of the commit (R169) -/

theorem firstUnset_of_unset {l : List (Option Half)} (n : Nat) (h : ∃ f ∈ l, f = none) :
    ∃ i, firstUnset n l = some (n + i) ∧ l[i]? = some none ∧ ∀ m, m < i → ∀ f, l[m]? = some f → f ≠ none := by
  induction l generalizing n with
  | nil => simp at h
  | cons f fs ih =>
    cases f with
    | none => exact ⟨0, rfl, rfl, fun m hm => absurd hm (by omega)⟩
    | some v =>
      have hrest : ∃ f ∈ fs, f = none := by simpa using h
      obtain ⟨i, hfirst, hget, hbefore⟩ := ih (n + 1) hrest
      refine ⟨i + 1, ?_, by simpa using hget, fun m hm f hf => ?_⟩
      · rw [firstUnset, hfirst]
        congr 1
        omega
      · cases m with
        | zero =>
          obtain rfl : some v = f := by simpa using hf
          nofun
        | succ m => exact hbefore m (by omega) f (by simpa using hf)

theorem firstUnset_of_set {l : List (Option Half)} (n : Nat) (h : ∀ f ∈ l, f ≠ none) : firstUnset n l = none := by
  induction l generalizing n with
  | nil => rfl
  | cons f fs ih =>
    obtain ⟨hf, hfs⟩ := List.forall_mem_cons.1 h
    cases f with
    | none => exact absurd rfl hf
    | some v => rw [firstUnset, ih (n + 1) hfs]

theorem commitFailure_of_unset {c : ConfigRecord} (h : ∃ f ∈ c.required, f = none) :
    ∃ n, c.commitFailure = some (.refusedCondition, 1, n)
      ∧ c.required[n - 1]? = some none ∧ 1 ≤ n ∧ ∀ m, m + 1 < n → ∀ f, c.required[m]? = some f → f ≠ none := by
  obtain ⟨i, hfirst, hget, hbefore⟩ := firstUnset_of_unset 1 h
  refine ⟨1 + i, ?_, by simpa using hget, by omega, fun m hm => hbefore m (by omega)⟩
  simp only [ConfigRecord.commitFailure, hfirst]

/-- The first comparison that fails gives the answer. -/
theorem firstFailing_cons (p : Prop) [Decidable p] (number field : Nat) (rest : List (Bool × Nat × Nat)) :
    ((((decide p, number, field) :: rest).find? fun test => !test.1).map fun test =>
        (Result.refusedValue, test.2.1, test.2.2))
      = if ¬ p then some (.refusedValue, number, field)
        else (rest.find? fun test => !test.1).map fun test => (Result.refusedValue, test.2.1, test.2.2) := by
  by_cases h : p
  · rw [if_neg (not_not.2 h), List.find?_cons_of_neg (by simp [h])]
  · rw [if_pos h, List.find?_cons_of_pos (by simp [h])]
    rfl

/-- The comparisons 2 to 8 in their order. -/
theorem commitFailure_of_set {c : ConfigRecord} (h : ∀ f ∈ c.required, f ≠ none) :
    let tests : List (Bool × Nat × Nat) :=
      [(decide (fieldNat c.ovRelease < fieldNat c.ovTrip), 2, 6),
        (decide (fieldNat c.uvTrip < fieldNat c.uvRelease), 3, 8),
        (decide (fieldNat c.uvTrip < fieldNat c.ovTrip), 4, 7),
        (decide (fieldNat c.emptyVoltage < fieldNat c.fullVoltage), 5, 18),
        (decide ((c.tempRelease.getD 0).toInt + 5 ≤ (c.tempTrip.getD 0).toInt), 6, 14),
        (decide (fieldNat c.deadBus < fieldNat c.busOvLimit), 7, 3),
        (decide (fieldNat c.settleCode ≤ 5), 8, 16)]
    c.commitFailure = (tests.find? fun test => !test.1).map fun test => (.refusedValue, test.2.1, test.2.2) := by
  have hcount (a b : Nat) : a * 5 < b * 5 ↔ a < b := by omega
  have htemp : c.tempReleaseC ≤ c.tempTripC - 5 ↔ (c.tempRelease.getD 0).toInt + 5 ≤ (c.tempTrip.getD 0).toInt := by
    unfold ConfigRecord.tempReleaseC ConfigRecord.tempTripC
    omega
  simp only [ConfigRecord.commitFailure, firstUnset_of_set 1 h, ConfigRecord.ovReleaseCount, ConfigRecord.ovTripCount,
    ConfigRecord.uvReleaseCount, ConfigRecord.uvTripCount, ConfigRecord.emptyCount, ConfigRecord.fullCount,
    ConfigRecord.deadBusCount, ConfigRecord.busOvCount, hcount, htemp, firstFailing_cons, List.find?_nil, Option.map_none]

/-! ## The steps of an accepted commit (R170) -/

/-- The first steps: committed, LISTEN left, the initial level applied, the comparator armed. -/
def State.commitBegun (s : State) : State :=
  (({ s with
    committed := true
    mbi := { s.mbi with bus := if s.mbi.bus = BusState.listen then BusState.active else s.mbi.bus } } :
    State).applyInitialLevel).armShort

/-- The last steps: the status timer, a STATUS, the self-check, and the answer. -/
def State.commitFinished (s : State) : State :=
  ((s.startStatusTimer.handStatus).startCommitCheck).reply .done []

/-- The standing onsets of the commit (R129). -/
def State.commitSilent (s : State) : State := s.commitBegun.takeStanding .busSilent s.commitBegun.tecValue

def State.commitDegraded (s : State) : State := s.commitSilent.takeStanding .rxDegraded s.commitSilent.recValue

theorem State.takeStanding_recValue (src : Source) (value : Half) (s : State) :
    (s.takeStanding src value).recValue = s.recValue := by simp [State.recValue]

theorem State.commit_eq (current : Nat) (s : State) :
    s.commit current = (s.commitDegraded.judgeShort current).startStatusTimer.handStatus.startCommitCheck := by
  have hrec : s.commitSilent.recValue = s.commitBegun.recValue := State.takeStanding_recValue _ _ _
  rw [State.commitDegraded, hrec]
  rfl

theorem exec_configCommit {current : Nat} {s : State} (h : s.TakesRequests) (hc : s.committed = false)
    (hno : s.config.commitFailure = none) :
    exec (.configCommit current) s = conclude s ((s.commitDegraded.judgeShort current).commitFinished) := by
  rw [exec, execConfigCommit, portRequest_of_taken s _ _ h]
  simp only [hc, hno, Bool.false_eq_true, if_false]
  rw [State.commit_eq]
  rfl

/-! ## The end of the commit -/

section Finished

variable {s x : State}

theorem State.checkStarted_eq (y : State) : (y.startCommitCheck).reply .done [] = { y with
    meas := { y.meas with cycleTimer := none }
    power := { y.power with
      check := .running, checkTimer := some 10, checkResult := .noneFailed, commitCheck := true }
    port := { y.port with response := some ⟨.done, []⟩ } } := rfl

/-- The last steps touch STATUS frames, the status timer, the sample cycle, the self-check and the answer. -/
theorem State.commitFinished_eq (hc : x.committed = true) : x.commitFinished = { x with
    mbi := { x.mbi with list := x.commitFinished.mbi.list, heldStatus := x.commitFinished.mbi.heldStatus }
    conn := { x.conn with statusTimer := some (statusPeriodMs (fieldNat x.config.statusPeriod)) }
    meas := { x.meas with cycleTimer := none }
    power := { x.power with
      check := .running, checkTimer := some 10, checkResult := .noneFailed, commitCheck := true }
    port := { x.port with response := some ⟨.done, []⟩ } } := by
  have hstart : x.startStatusTimer = { x with conn := { x.conn with
      statusTimer := some (statusPeriodMs (fieldNat x.config.statusPeriod)) } } := by
    rw [State.startStatusTimer, if_pos hc]
  have hmbi : x.commitFinished.mbi = x.startStatusTimer.handStatus.mbi := rfl
  have heq := State.handStatus_eq x.startStatusTimer
  rw [hmbi, State.commitFinished, State.checkStarted_eq]
  generalize x.startStatusTimer.handStatus = y at heq ⊢
  rw [heq, hstart]

theorem State.StatusHanded.checkStarted {y : State} (h : y.StatusHanded) :
    ((y.startCommitCheck).reply .done []).StatusHanded := h

theorem State.commitFinished_handed (x : State) : x.commitFinished.StatusHanded :=
  (State.handStatus_handed x.startStatusTimer).checkStarted

theorem State.commitFinished_pends {f : Frame} (hf : f.kind ≠ .status) (h : x.Pends f) : x.commitFinished.Pends f := by
  have hstart : x.startStatusTimer.Pends f := by
    unfold State.startStatusTimer
    split <;> exact h
  obtain ⟨n, hn⟩ := State.handStatus_pends _ _ hf hstart
  exact ⟨n, hn⟩

end Finished

theorem State.commitBegun_eq (s : State) : s.commitBegun = { s with
    committed := true
    mbi := { s.mbi with bus := if s.mbi.bus = .listen then .active else s.mbi.bus }
    det := { s.det with shortArmed := true, short := false }
    charge := s.commitBegun.charge } := by
  unfold State.commitBegun State.applyInitialLevel
  dsimp only
  split <;> rfl

theorem State.commitBegun_charge (s : State) :
    (∀ v, s.config.initialLevel = some v → s.commitBegun.charge = { s.charge with
        accAs := v.toNat * (360 * fieldNat s.config.capacity) / 200, accRem := 0, levelValid := true })
      ∧ (s.config.initialLevel = none → s.commitBegun.charge = s.charge) := by
  unfold State.commitBegun State.applyInitialLevel
  dsimp only
  constructor
  · intro v hv
    rw [show (s.config.initialLevel) = some v from hv]
    simp only [State.armShort, ConfigRecord.capacityAs, Nat.mul_comm]
  · intro hv
    rw [show (s.config.initialLevel) = none from hv]
    rfl

/-! ## A standing onset (R129) -/

section Standing

variable {src other : Source} {value : Half} {s : State}

theorem State.takeStanding_absent (h : (s.fault.register.get src).present = false) : s.takeStanding src value = s := by
  rw [State.takeStanding, if_neg (by simp [h])]

/-- A hold of the port alone covers a source that is no over-current source (R128). -/
theorem State.isHeld_of_port (hsrc : src.isOverCurrent = false) (hport : s.fault.portHolds.getLsbD (src.code - 1) = false) :
    s.isHeld src = false := by
  rw [State.isHeld, hport, hsrc]
  simp

theorem State.takeStanding_trips (hpath : src.isPath = false) (hc : s.committed = true)
    (hclear : (s.fault.register.get src).state = .clear) (hfree : s.isHeld src = false)
    (hpresent : (s.fault.register.get src).present = true) :
    s.TakesTrip (src.cause value .localOnly) (s.takeStanding src value)
      ∧ (s.takeStanding src value).fault.register.get src = ⟨.active, true, some value⟩ := by
  have hacts := State.actsOn_of_committed (s := s) src hc
  rw [State.takeStanding, if_pos hpresent]
  exact ⟨State.takeOnset_takes _ _ _ _ hpath ⟨hacts, .inl ⟨.inl hclear, hfree⟩⟩,
    State.takeOnset_register_armed _ _ _ _ hacts (.inl ⟨.inl hclear, hfree⟩)⟩

theorem State.takeStanding_other (hne : other ≠ src) (h : (s.fault.register.get other).state ≠ .held) :
    (s.takeStanding src value).fault.register.get other = s.fault.register.get other := by
  unfold State.takeStanding
  split
  · exact State.takeOnset_register_other src other value .localOnly s hne h
  · rfl

end Standing

/-! ## The state that the commit leaves -/

/-- What the whole commit leaves alone, and what its last steps set. -/
def State.CommitLeaves (s u : State) : Prop :=
  u.committed = true ∧ u.config = s.config ∧ u.mbi.bus = (if s.mbi.bus = .listen then .active else s.mbi.bus)
    ∧ u.charge = s.commitBegun.charge ∧ u.det.shortArmed = true
    ∧ u.conn.statusTimer = some (statusPeriodMs (fieldNat s.config.statusPeriod)) ∧ u.StatusHanded
    ∧ u.power.check = .running ∧ u.power.checkTimer = some 10 ∧ u.power.commitCheck = true ∧ u.meas.cycleTimer = none
    ∧ u.port.response = some ⟨.done, []⟩ ∧ u.conn.joined = s.conn.joined ∧ u.roster = s.roster ∧ u.ownId = s.ownId

section Commit

variable {current : Nat} {s : State}

/-- The state before the last steps, by what no onset touches. -/
theorem State.commitJudged_frame (current : Nat) (s : State) :
    (s.commitDegraded.judgeShort current).committed = true ∧ (s.commitDegraded.judgeShort current).config = s.config
      ∧ (s.commitDegraded.judgeShort current).mbi.bus = (if s.mbi.bus = .listen then .active else s.mbi.bus)
      ∧ (s.commitDegraded.judgeShort current).charge = s.commitBegun.charge
      ∧ (s.commitDegraded.judgeShort current).det.shortArmed = true
      ∧ (s.commitDegraded.judgeShort current).conn.joined = s.conn.joined
      ∧ (s.commitDegraded.judgeShort current).roster = s.roster
      ∧ (s.commitDegraded.judgeShort current).ownId = s.ownId := by
  have hbegun := s.commitBegun_eq
  unfold State.commitDegraded State.commitSilent
  generalize s.commitBegun = x at hbegun ⊢
  simp only [State.judgeShort_frame, State.takeStanding_frame, true_and]
  rw [hbegun]
  simp

theorem State.commit_leaves (current : Nat) (s : State) :
    s.CommitLeaves (s.commitDegraded.judgeShort current).commitFinished := by
  obtain ⟨hcommitted, hconfig, hbus, hcharge, harmed, hjoined, hroster, hown⟩ := s.commitJudged_frame current
  have heq := State.commitFinished_eq hcommitted
  have hhanded := (s.commitDegraded.judgeShort current).commitFinished_handed
  generalize s.commitDegraded.judgeShort current = x at *
  unfold State.CommitLeaves
  generalize x.commitFinished = u at heq hhanded ⊢
  rw [← hconfig]
  rw [heq] at hhanded ⊢
  exact ⟨hcommitted, rfl, hbus, hcharge, harmed, rfl, hhanded, rfl, rfl, rfl, rfl, rfl, hjoined, hroster, hown⟩

/-- The comparator at the commit (R119). -/
theorem State.commitDegraded_det (s : State) : s.commitDegraded.det = { s.det with shortArmed := true, short := false }
    ∧ s.commitDegraded.committed = true ∧ s.commitDegraded.config = s.config
    ∧ s.commitDegraded.meas = s.meas := by
  have hbegun := s.commitBegun_eq
  unfold State.commitDegraded State.commitSilent
  generalize s.commitBegun = x at hbegun ⊢
  simp only [State.takeStanding_frame]
  rw [hbegun]
  simp

theorem State.commitBegun_fields (s : State) : s.commitBegun.fault = s.fault ∧ s.commitBegun.committed = true
    ∧ s.commitSilent = s.commitBegun.takeStanding .busSilent (BitVec.ofNat 16 s.mbi.tec)
    ∧ s.commitDegraded = s.commitSilent.takeStanding .rxDegraded (BitVec.ofNat 16 s.mbi.recCount) := by
  have hbegun := s.commitBegun_eq
  have hvalues : s.commitBegun.tecValue = BitVec.ofNat 16 s.mbi.tec
      ∧ s.commitBegun.recValue = BitVec.ofNat 16 s.mbi.recCount := by
    rw [hbegun]
    exact ⟨rfl, rfl⟩
  have hrec : s.commitSilent.recValue = s.commitBegun.recValue := State.takeStanding_recValue _ _ _
  refine ⟨by rw [hbegun], by rw [hbegun], by rw [State.commitSilent, hvalues.1], ?_⟩
  rw [State.commitDegraded, hrec, hvalues.2]

theorem State.commitSilent_fields (s : State) : s.commitSilent.committed = true
    ∧ s.commitSilent.fault.portHolds = s.fault.portHolds
    ∧ ∀ other : Source, other ≠ .busSilent → (s.fault.register.get other).state ≠ .held →
        s.commitSilent.fault.register.get other = s.fault.register.get other := by
  obtain ⟨hfault, hcommitted, hsilent, -⟩ := s.commitBegun_fields
  rw [hsilent]
  refine ⟨by simpa using hcommitted, by simp [hfault], fun other hne h => ?_⟩
  exact (State.takeStanding_other hne (by rwa [hfault])).trans (by rw [hfault])

/-- BUS_SILENT standing at the commit. -/
theorem State.commit_busSilent {s : State} (hclear : s.fault.register.busSilent.state = .clear)
    (hfree : s.fault.portHolds.getLsbD 8 = false) :
    (s.fault.register.busSilent.present = true →
        s.commitBegun.TakesTrip (Source.busSilent.cause (BitVec.ofNat 16 s.mbi.tec) .localOnly) s.commitSilent
          ∧ s.commitDegraded.fault.register.get .busSilent = ⟨.active, true, some (BitVec.ofNat 16 s.mbi.tec)⟩)
      ∧ (s.fault.register.busSilent.present = false → s.commitSilent = s.commitBegun
          ∧ s.commitDegraded.fault.register.get .busSilent = s.fault.register.get .busSilent) := by
  obtain ⟨hfault, hcommitted, hsilent, hdegraded⟩ := s.commitBegun_fields
  have hkept (h : (s.commitSilent.fault.register.get .busSilent).state ≠ .held) :
      s.commitDegraded.fault.register.get .busSilent = s.commitSilent.fault.register.get .busSilent := by
    rw [hdegraded]
    exact State.takeStanding_other (by decide) h
  have hclear' : (s.commitBegun.fault.register.get .busSilent).state = .clear := by rw [hfault]; exact hclear
  refine ⟨fun hpresent => ?_, fun habsent => ?_⟩
  · have hfree' := State.isHeld_of_port (src := .busSilent) (s := s.commitBegun) rfl (by rw [hfault]; exact hfree)
    obtain ⟨htrip, hregister⟩ := State.takeStanding_trips (value := BitVec.ofNat 16 s.mbi.tec) rfl hcommitted hclear' hfree'
      (by rw [hfault]; exact hpresent)
    rw [← hsilent] at htrip hregister
    exact ⟨htrip, (hkept (by rw [hregister]; nofun)).trans hregister⟩
  · have hsame : s.commitSilent = s.commitBegun := hsilent.trans (State.takeStanding_absent (by rw [hfault]; exact habsent))
    rw [hsame] at hkept
    exact ⟨hsame, (hkept (by rw [hclear']; decide)).trans (by rw [hfault])⟩

/-- RX_DEGRADED standing at the commit. -/
theorem State.commit_rxDegraded {s : State} (hclear : s.fault.register.rxDegraded.state = .clear)
    (hfree : s.fault.portHolds.getLsbD 9 = false) :
    (s.fault.register.rxDegraded.present = true →
        s.commitSilent.TakesTrip (Source.rxDegraded.cause (BitVec.ofNat 16 s.mbi.recCount) .localOnly) s.commitDegraded
          ∧ s.commitDegraded.fault.register.get .rxDegraded = ⟨.active, true, some (BitVec.ofNat 16 s.mbi.recCount)⟩)
      ∧ (s.fault.register.rxDegraded.present = false → s.commitDegraded = s.commitSilent
          ∧ s.commitDegraded.fault.register.get .rxDegraded = s.fault.register.get .rxDegraded) := by
  obtain ⟨-, -, -, hdegraded⟩ := s.commitBegun_fields
  obtain ⟨hcommitted, hports, hothers⟩ := s.commitSilent_fields
  have hnotHeld : (s.fault.register.get .rxDegraded).state ≠ .held := fun h => nomatch hclear.symm.trans h
  have hget := hothers .rxDegraded (by decide) hnotHeld
  refine ⟨fun hpresent => ?_, fun habsent => ?_⟩
  · have hfree' := State.isHeld_of_port (src := .rxDegraded) (s := s.commitSilent) rfl (by rw [hports]; exact hfree)
    obtain ⟨htrip, hregister⟩ := State.takeStanding_trips (value := BitVec.ofNat 16 s.mbi.recCount) rfl hcommitted
      (by rw [hget]; exact hclear) hfree' (by rw [hget]; exact hpresent)
    rw [← hdegraded] at htrip hregister
    exact ⟨htrip, hregister⟩
  · have hsame : s.commitDegraded = s.commitSilent :=
      hdegraded.trans (State.takeStanding_absent (by rw [hget]; exact habsent))
    exact ⟨hsame, by rw [hsame, hget]⟩

/-- Neither standing onset touches SHORT. -/
theorem State.commit_short {s : State} (h : (s.fault.register.get .short).state ≠ .held) :
    s.commitDegraded.fault.register.get .short = s.fault.register.get .short := by
  obtain ⟨-, -, -, hdegraded⟩ := s.commitBegun_fields
  obtain ⟨-, -, hothers⟩ := s.commitSilent_fields
  have hget := hothers .short (by decide) h
  rw [hdegraded, State.takeStanding_other (by decide) (by rwa [hget]), hget]

end Commit

/-- The last steps leave what the onsets have done. -/
theorem State.commitFinished_kept {x : State} (hc : x.committed = true) :
    x.commitFinished.fault = x.fault ∧ x.commitFinished.conn.state = x.conn.state
      ∧ x.commitFinished.closure = x.closure ∧ x.commitFinished.switches = x.switches ∧ x.commitFinished.det = x.det
      ∧ x.commitFinished.port.events = x.port.events := by
  have heq := State.commitFinished_eq hc
  generalize x.commitFinished = u at heq ⊢
  rw [heq]
  exact ⟨rfl, rfl, rfl, rfl, rfl, rfl⟩

theorem State.TakesTrip.commitFinished {d : TripCause} {s x : State} (h : s.TakesTrip d x) (hc : x.committed = true) :
    s.TakesTrip d x.commitFinished := by
  obtain ⟨hfault, hstate, hclosure, hswitches, -, hevents⟩ := State.commitFinished_kept hc
  refine h.later hstate hswitches (by rw [hclosure]) (by rw [hclosure]) (by rw [hclosure]) (by rw [hclosure])
    (by rw [hfault]) (by rw [hfault]) (by rw [hfault]) (by simp [State.hasEvent, hevents])
    fun f hf hp => State.commitFinished_pends hf hp

/-- The commit with neither source present and a current within the short level. -/
theorem State.commitJudged_plain {current : Nat} {s : State} (hsilent : s.fault.register.busSilent.present = false)
    (hdegraded : s.fault.register.rxDegraded.present = false)
    (hlevel : current ≤ shortOnsetLevel (fieldNat s.config.shortCode)) :
    s.commitDegraded.judgeShort current = s.commitBegun := by
  obtain ⟨hfault, -, hfirst, hsecond⟩ := s.commitBegun_fields
  have hsame : s.commitSilent = s.commitBegun := hfirst.trans (State.takeStanding_absent (by rw [hfault]; exact hsilent))
  have hsame' : s.commitDegraded = s.commitBegun := by
    rw [hsecond, hsame]
    exact State.takeStanding_absent (by rw [hfault]; exact hdegraded)
  rw [hsame']
  refine State.judgeShort_of_not (.inr (.inr ?_))
  rw [s.commitBegun_eq]
  exact hlevel

/-- The comparator at the commit: a SHORT (R119). -/
theorem State.commit_takesShort {current : Nat} {s : State} (hheld : s.fault.register.short.state ≠ .held)
    (hlevel : shortOnsetLevel (fieldNat s.config.shortCode) < current) :
    s.commitDegraded.TakesTrip s.shortCause (s.commitDegraded.judgeShort current).commitFinished
      ∧ (s.commitDegraded.judgeShort current).det.short = true
      ∧ (s.commitDegraded.judgeShort current).fault.register.short
        = ⟨.active, true, some ((s.meas.sample.map (·.vbus)).getD 0)⟩ := by
  obtain ⟨hdet, hcommitted, hconfig, hmeas⟩ := s.commitDegraded_det
  obtain ⟨hcommitted', -⟩ := s.commitJudged_frame current
  have hshort := State.commit_short hheld
  have hcause : s.commitDegraded.shortCause = s.shortCause := State.shortCause_congr (by rw [hmeas]) hconfig
  generalize s.commitDegraded = b at *
  have harmed : b.det.shortArmed = true := by rw [hdet]
  have hclear : b.det.short = false := by rw [hdet]
  have hheld' : b.fault.register.short.state ≠ .held := (congrArg SourceRecord.state hshort).trans_ne hheld
  rw [← hconfig] at hlevel
  obtain ⟨hrecord, -⟩ := State.judgeShort_reports current b harmed hclear hlevel hcommitted hheld'
  rw [hmeas] at hrecord
  refine ⟨?_, by rw [State.judgeShort_det harmed hclear hlevel], hrecord⟩
  rw [← hcause]
  exact (State.judgeShort_takes current b harmed hclear hlevel hcommitted hheld').commitFinished hcommitted'

/-- The comparator at the commit: a current within the short level. -/
theorem State.commit_withinShort {current : Nat} {s : State}
    (hlevel : current ≤ shortOnsetLevel (fieldNat s.config.shortCode)) :
    s.commitDegraded.judgeShort current = s.commitDegraded := by
  obtain ⟨-, -, hconfig, -⟩ := s.commitDegraded_det
  exact State.judgeShort_of_not (.inr (.inr (by rw [hconfig]; exact hlevel)))

/-- The start of the commit, written out (R104, R170). -/
theorem State.commitBegun_eq_written (s : State) : s.commitBegun = { s with
    committed := true
    mbi := { s.mbi with bus := if s.mbi.bus = .listen then .active else s.mbi.bus }
    det := { s.det with shortArmed := true, short := false }
    charge := match s.config.initialLevel with
      | none => s.charge
      | some v => { s.charge with
          accAs := v.toNat * (360 * fieldNat s.config.capacity) / 200, accRem := 0, levelValid := true } } := by
  obtain ⟨hset, hunset⟩ := s.commitBegun_charge
  rw [s.commitBegun_eq]
  cases hv : s.config.initialLevel with
  | none => rw [hunset hv]
  | some v => rw [hset v hv]

/-- Settles O47: the refusals by the tests, the accepted commit by its onsets and what its last steps leave. -/
theorem configCommit : Obligations.ConfigCommit := by
  refine ⟨fun current s h => ⟨fun hc => ?committed, fun result test field hc hfails => ?refused,
    fun hc hpass hsilent hdegraded hlevel => ?plain,
    fun hc hpass hsilent hsilentFree hdegraded hdegradedFree hshort => ?trips⟩,
    fun c => ⟨commitFailure_of_unset, commitFailure_of_set⟩, fun c => rfl⟩
  case committed =>
    rw [exec, execConfigCommit, portRequest_of_taken s _ _ h]
    exact if_pos hc
  case refused =>
    rw [exec, execConfigCommit, portRequest_of_taken s _ _ h]
    rw [if_neg (by simp [hc]), hfails]
    rfl
  case plain =>
    have hleaves := s.commit_leaves current
    have hexec := exec_configCommit (current := current) h hc hpass
    rw [State.commitJudged_plain hsilent hdegraded hlevel] at hleaves hexec
    obtain ⟨hfault, hcommitted, -, -⟩ := s.commitBegun_fields
    obtain ⟨hset, hunset⟩ := s.commitBegun_charge
    obtain ⟨hkfault, hkstate, hkclosure, hkswitches, hkdet, -⟩ := State.commitFinished_kept hcommitted
    have hbegun := s.commitBegun_eq
    obtain ⟨lcommitted, lconfig, lbus, lcharge, lshort, ltimer, lhanded, lcheck, lcheckTimer, lcommit, lcycle, lresponse,
      ljoined, lroster, lown⟩ := hleaves
    refine ends_of_conclude hexec ⟨lcommitted, lconfig, lbus, fun v hv => ?_, fun hv => lcharge.trans (hunset hv), lshort, ?_,
      ltimer, lhanded, lcheck, lcheckTimer, lcommit, lcycle, lresponse, ?_, hkfault.trans hfault, lroster, ?_, ?_, lown⟩
    · rw [lcharge, hset v hv]
      exact ⟨rfl, rfl, rfl⟩
    · rw [hkdet, hbegun]
    · rw [hkstate, hbegun]
    · rw [hkclosure, hbegun]
    · rw [hkswitches, hbegun]
  case trips =>
    intro level begun tec rx
    have hbegun : s.commitBegun = begun := s.commitBegun_eq_written
    have hbus : begun.mbi.bus = (if s.mbi.bus = .listen then .active else s.mbi.bus) := rfl
    obtain ⟨hdet, -, -, -⟩ := s.commitDegraded_det
    obtain ⟨hcommitted, -⟩ := s.commitJudged_frame current
    obtain ⟨hkfault, hkstate, hkclosure, hkswitches, hkdet, -⟩ := State.commitFinished_kept hcommitted
    obtain ⟨lcommitted, lconfig, lbus, lcharge, lshort, ltimer, lhanded, lcheck, lcheckTimer, lcommit, lcycle, lresponse,
      ljoined, lroster, lown⟩ := s.commit_leaves current
    obtain ⟨hstanding, hnoSilent⟩ := State.commit_busSilent hsilent hsilentFree
    obtain ⟨hstanding', hnoDegraded⟩ := State.commit_rxDegraded hdegraded hdegradedFree
    have hkept (src : Source) (x : SourceRecord) (hne : src ≠ .short) (hx : x.state ≠ .held)
        (hsrc : s.commitDegraded.fault.register.get src = x) :
        (s.commitDegraded.judgeShort current).commitFinished.fault.register.get src = x := by
      rw [hkfault, State.judgeShort_register_other current src _ hne (by rwa [hsrc]), hsrc]
    obtain ⟨t, ht, hend⟩ := conclude_end s (s.commitDegraded.judgeShort current).commitFinished
    have hsilentState : s.fault.register.busSilent.state ≠ .held := fun hx => nomatch hsilent.symm.trans hx
    have hdegradedState : s.fault.register.rxDegraded.state ≠ .held := fun hx => nomatch hdegraded.symm.trans hx
    refine ⟨s.commitSilent, s.commitDegraded, _, t, (exec_configCommit h hc hpass).trans ht, hend,
      fun hp => ?_, fun hp => ?_, fun hp => ?_, fun hp => ?_, fun hl => ?_, fun hl => ?_,
      lcommitted, lconfig, lbus.trans hbus.symm, ?_, lshort, ltimer, lhanded, lcheck, lcheckTimer, lcommit, lcycle,
      lresponse, ljoined, lroster, lown⟩
    · obtain ⟨htrip, hreg⟩ := hstanding hp
      exact ⟨hbegun ▸ htrip, hkept .busSilent _ (by decide) nofun hreg⟩
    · obtain ⟨hsame, hreg⟩ := hnoSilent hp
      exact ⟨hsame.trans hbegun, hkept .busSilent _ (by decide) hsilentState hreg⟩
    · obtain ⟨htrip, hreg⟩ := hstanding' hp
      exact ⟨htrip, hkept .rxDegraded _ (by decide) nofun hreg⟩
    · obtain ⟨hsame, hreg⟩ := hnoDegraded hp
      exact ⟨hsame, hkept .rxDegraded _ (by decide) hdegradedState hreg⟩
    · obtain ⟨htrip, hnoted, hreg⟩ := State.commit_takesShort hshort hl
      exact ⟨htrip, by rw [hkdet, hnoted], by rw [hkfault, hreg]⟩
    · have hsame := State.commit_withinShort (s := s) hl
      rw [hsame] at hkfault hkstate hkclosure hkswitches hkdet ⊢
      exact ⟨hkfault, hkstate, hkclosure, hkswitches, by rw [hkdet, hdet],
        (congrArg (fun x => x.register.short) hkfault).trans (State.commit_short hshort)⟩
    · exact lcharge.trans (congrArg State.charge hbegun)

end Sys2Proof.Machine
end

section
/-! PROOF. The beginning of a claim (R48, R74 to R76): what it leaves, and how the end of a command leads to it. -/

namespace Sys2Proof.Machine

/-! ## A claim begins (R48) -/

/-- The state in which a claim is taken up, before its CLAIM is handed over. -/
def State.claimTakenUp (s : State) : State := { s with closure := { s.closure with
  claimNumber := s.closure.claimNumber + 1
  claim := some { voltage := (s.meas.sample.map (·.vmod)).getD 0, phase := .queued } } }

/-- Its CLAIM. -/
def State.ownClaim (s : State) : Frame :=
  .claim ⟨(s.meas.sample.map (·.vmod)).getD 0, s.closure.claimNumber + 1, s.config.timingByte⟩

theorem State.beginClaim_eq (s : State) :
    s.beginClaim = (s.claimTakenUp.queueFrame s.ownClaim).changeConn .claiming .none := rfl

theorem State.beginClaim_closure (s : State) :
    s.beginClaim.closure.claimNumber = s.closure.claimNumber + 1
      ∧ s.beginClaim.closure.claim = some ⟨(s.meas.sample.map (·.vmod)).getD 0, .queued⟩ := by
  rw [State.beginClaim_eq]
  simp [State.claimTakenUp]

theorem State.beginClaim_entered {s : State} (h : s.conn.state = .isolated) : s.beginClaim.Entered .claiming := by
  rw [State.beginClaim_eq]
  exact State.changeConn_entered _ _ _ (by simp [State.claimTakenUp, h])

theorem State.beginClaim_handed (s : State) : s.beginClaim.Handed s.ownClaim := by
  rw [State.beginClaim_eq]
  exact State.changeConn_handed _ _ _ _ nofun (State.queueFrame_handed _ _ rfl)

/-- ISOLATED is left for CLAIMING without a change of the record (R44). -/
theorem State.beginClaim_record {s : State} (h : s.conn.state = .isolated) :
    s.beginClaim.closure.record = s.closure.record := by
  rw [State.beginClaim_eq, State.changeConn_record _ _ _ (by simp [State.claimTakenUp, h])]
  simp [State.recordAfter, State.claimTakenUp, h]

theorem filter_insertFrame_own (f : TxFrame) (l : List TxFrame) (h : f.frame.kind.isOwnConnection = true) :
    ((insertFrame f l).filter fun g => g.frame.kind.isOwnConnection).length
      = (l.filter fun g => g.frame.kind.isOwnConnection).length + 1 := by
  induction l with
  | nil => simp [insertFrame, h]
  | cons x xs ih =>
    unfold insertFrame
    split
    · simp [List.filter_cons, h]
    · by_cases hx : x.frame.kind.isOwnConnection = true
      · simp [hx, ih]
      · simp [hx, ih]

theorem State.changeConn_ownConnection (new : ConnState) (path : Path) (s : State) :
    ((s.changeConn new path).mbi.list.filter fun f => f.frame.kind.isOwnConnection)
      = s.mbi.list.filter fun f => f.frame.kind.isOwnConnection := by
  unfold State.changeConn
  split
  · rfl
  · exact State.handStatus_ownConnection _

/-- The CLAIM is the only own-connection frame of the list. -/
theorem State.beginClaim_ownConnection {s : State} (h : s.MayClaim) :
    (s.beginClaim.mbi.list.filter fun f => f.frame.kind.isOwnConnection).length = 1 := by
  obtain ⟨-, -, -, hbus, -, -, -, -, hnone⟩ := h
  have hjoined : (s.claimTakenUp.queueFrame s.ownClaim).mbi.list = insertFrame ⟨s.ownClaim, 0⟩ s.mbi.list := by
    unfold State.queueFrame
    rw [if_neg (show ¬ s.claimTakenUp.mbi.bus ≠ .active from not_not.2 hbus)]
    rfl
  have hempty : (s.mbi.list.filter fun f => f.frame.kind.isOwnConnection) = [] :=
    List.filter_eq_nil_iff.2 fun f hf => by simp [hnone f hf]
  rw [State.beginClaim_eq, State.changeConn_ownConnection, hjoined, filter_insertFrame_own _ _ rfl, hempty]
  rfl

/-! ## The claim that a command has begun -/

/-- A claim with the given number has just begun: the conditions of R74 and R76 hold, and its CLAIM is the own-connection
frame of the list. -/
def State.NewClaim (number : Byte) (t : State) : Prop :=
  t.conn.state = .claiming ∧ t.power.check = .passed ∧ t.conn.sleepPending = false ∧ t.mbi.bus = .active
    ∧ t.mbi.rejectMuted = false ∧ t.closure.record = none ∧ t.closure.holdOff = none ∧ t.closure.quiet = none
    ∧ t.closure.claimNumber = number ∧ t.VoltageHolds
    ∧ (t.mbi.list.filter fun f => f.frame.kind.isOwnConnection).length = 1

theorem State.VoltageHolds.of_same {s u : State} (h : s.VoltageHolds) (hsample : u.meas.sample = s.meas.sample)
    (hconfig : u.config = s.config) (hroster : u.roster = s.roster) : u.VoltageHolds := by
  unfold State.VoltageHolds State.PeerAnnounces at *
  rwa [hsample, hconfig, hroster]

theorem State.NewClaim.of_same {number : Byte} {s u : State} (h : s.NewClaim number) (hstate : u.conn.state = s.conn.state)
    (hcheck : u.power.check = s.power.check) (hsleep : u.conn.sleepPending = s.conn.sleepPending)
    (hbus : u.mbi.bus = s.mbi.bus) (hmuted : u.mbi.rejectMuted = s.mbi.rejectMuted) (hclosure : u.closure = s.closure)
    (hsample : u.meas.sample = s.meas.sample) (hconfig : u.config = s.config) (hroster : u.roster = s.roster)
    (hlist : (u.mbi.list.filter fun f => f.frame.kind.isOwnConnection)
      = s.mbi.list.filter fun f => f.frame.kind.isOwnConnection) : u.NewClaim number := by
  obtain ⟨h1, h2, h3, h4, h5, h6, h7, h8, h9, hvoltage, hown⟩ := h
  refine ⟨hstate.trans h1, hcheck.trans h2, hsleep.trans h3, hbus.trans h4, hmuted.trans h5, ?_, ?_, ?_, ?_,
    hvoltage.of_same hsample hconfig hroster, by rw [hlist]; exact hown⟩
  all_goals rw [hclosure]; assumption

theorem State.beginClaim_newClaim {s : State} (h : s.Eligible) : s.beginClaim.NewClaim (s.closure.claimNumber + 1) := by
  obtain ⟨hmay, hvoltage⟩ := h
  obtain ⟨hstate, hcheck, hsleep, hbus, hmuted, hrecord, hhold, hquiet, -⟩ := id hmay
  exact ⟨(State.beginClaim_entered hstate).1, by simp [hcheck], by simp [hsleep], by simp [hbus], by simp [hmuted],
    (State.beginClaim_record hstate).trans hrecord, by simp [hhold], by simp [hquiet], s.beginClaim_closure.1,
    hvoltage.of_same (by simp) (by simp) (by simp), State.beginClaim_ownConnection hmay⟩

theorem State.NewClaim.offer {number : Byte} {s : State} (h : s.NewClaim number) : s.offer.NewClaim number :=
  h.of_same (by simp) (by simp) (by simp) (by simp) (by simp) (by simp) (by simp) (by simp) (by simp)
    (by simp)

/-! ## The conditions of R74, one by one -/

section Eligible

variable {s : State} (h : s.Eligible)

include h

theorem State.Eligible.isolated : s.conn.state = .isolated := by
  obtain ⟨⟨hstate, -⟩, -⟩ := h
  exact hstate

theorem State.Eligible.passed : s.power.check = .passed := by
  obtain ⟨⟨-, hcheck, -⟩, -⟩ := h
  exact hcheck

theorem State.Eligible.awake : s.conn.sleepPending = false := by
  obtain ⟨⟨-, -, hawake, -⟩, -⟩ := h
  exact hawake

theorem State.Eligible.record : s.closure.record = none := by
  obtain ⟨⟨-, -, -, -, -, hrecord, -⟩, -⟩ := h
  exact hrecord

theorem State.Eligible.holdOff : s.closure.holdOff = none := by
  obtain ⟨⟨-, -, -, -, -, -, hhold, -⟩, -⟩ := h
  exact hhold

theorem State.Eligible.quiet : s.closure.quiet = none := by
  obtain ⟨⟨-, -, -, -, -, -, -, hquiet, -⟩, -⟩ := h
  exact hquiet

end Eligible

/-! ## What a command may do to a claim -/

/-- The command answers no state in which a station stands eligible that was not so before, and begins a claim only as a
new claim of the next number, its conditions holding. -/
def ClaimsFairly (s : State) (a : Answer) : Prop :=
  ∀ t, a = .next t → (¬ s.Eligible → ¬ t.Eligible)
    ∧ (s.closure.claim = none → t.closure.claim ≠ none → t.NewClaim (s.closure.claimNumber + 1))

/-- No claim where there was none, and the claim number stands. -/
def Unclaimed (s u : State) : Prop :=
  s.closure.claim = none → u.closure.claim = none ∧ u.closure.claimNumber = s.closure.claimNumber

theorem Unclaimed.refl (s : State) : Unclaimed s s := fun h => ⟨h, rfl⟩

theorem Unclaimed.trans {s u w : State} (h1 : Unclaimed s u) (h2 : Unclaimed u w) : Unclaimed s w := fun h => by
  obtain ⟨hu, hnumber⟩ := h1 h
  obtain ⟨hw, hnumber'⟩ := h2 hu
  exact ⟨hw, hnumber'.trans hnumber⟩

theorem Unclaimed.of_closure {s u : State} (hclaim : u.closure.claim = s.closure.claim)
    (hnumber : u.closure.claimNumber = s.closure.claimNumber) : Unclaimed s u := fun h => ⟨hclaim.trans h, hnumber⟩

/-- A change that touches no claim, and then such a one. -/
theorem Unclaimed.after {s u w : State} (h : Unclaimed u w) (hclosure : u.closure = s.closure) : Unclaimed s w :=
  .trans (.of_closure (by rw [hclosure]) (by rw [hclosure])) h

/-- What the end of a command leaves of the claim. -/
theorem conclude_claim {before u t : State} (h : conclude before u = .next t) :
    t.closure.claim = u.closure.claim ∨ u.Eligible ∧ t = u.beginClaim.offer := by
  obtain ⟨t', ht', heligible, hconflict, hneither⟩ := conclude_end before u
  obtain rfl := Host.Outcome.next.inj (h.symm.trans ht')
  by_cases he : u.Eligible
  · rcases heligible he with rfl | ⟨-, rfl⟩
    · exact .inr ⟨he, rfl⟩
    · exact .inl (by simp)
  · by_cases hc : u.SenseConflict
    · rcases hconflict hc with rfl | ⟨-, rfl⟩
      · exact .inl (by simp)
      · exact .inl (by simp)
    · rw [hneither he hc]
      exact .inl (by simp)

theorem concludes_fairly_of {s u : State}
    (h : s.closure.claim = none →
      u.closure.claim = none ∧ (u.Eligible → u.closure.claimNumber = s.closure.claimNumber)) :
    ClaimsFairly s (conclude s u) := by
  refine fun t ht => ⟨fun hs => conclude_not_eligible s u t hs ht, fun hnone hbegun => ?_⟩
  obtain ⟨hclaim, hnumber⟩ := h hnone
  rcases conclude_claim ht with hsame | ⟨he, rfl⟩
  · exact absurd (hsame.trans hclaim) hbegun
  · rw [← hnumber he]
    exact (State.beginClaim_newClaim he).offer

theorem Unclaimed.concludes {s u : State} (h : Unclaimed s u) : ClaimsFairly s (conclude s u) :=
  concludes_fairly_of fun hnone => ⟨(h hnone).1, fun _ => (h hnone).2⟩

theorem Unclaimed.concludes_reply {s u : State} {r : Result} {data : List Byte} (h : Unclaimed s u) :
    ClaimsFairly s (conclude s (u.reply r data)) := Unclaimed.concludes h

/-- A command that leaves what the test looks at and the claim alone. -/
theorem ClaimsFairly.next {s t : State} (hview : t.claimView = s.claimView) (hclaim : t.closure.claim = s.closure.claim) :
    ClaimsFairly s (.next t) := fun t' ht' => by
  obtain rfl := Host.Outcome.next.inj ht'
  exact ⟨(State.eligible_of_sameView s t hview).not.2, fun hnone hbegun => absurd (hclaim.trans hnone) hbegun⟩

theorem ClaimsFairly.unchanged (s : State) : ClaimsFairly s (.next s) := .next rfl rfl

/-- A command that leaves a condition of R74 failed, and no claim. -/
theorem ClaimsFairly.halted {s t : State} (hfails : ¬ t.Eligible) (hnone : t.closure.claim = none) :
    ClaimsFairly s (.next t) := fun t' ht' => by
  obtain rfl := Host.Outcome.next.inj ht'
  exact ⟨fun _ => hfails, fun _ hbegun => absurd hnone hbegun⟩

theorem ClaimsFairly.after {s u : State} {a : Answer} (h : ClaimsFairly u a) (hview : u.claimView = s.claimView)
    (hclosure : u.closure = s.closure) : ClaimsFairly s a := fun t ht => by
  obtain ⟨hkeeps, hbegins⟩ := h t ht
  refine ⟨fun hs => hkeeps ((State.eligible_of_sameView s u hview).not.2 hs), fun hnone hbegun => ?_⟩
  rw [← hclosure] at hnone ⊢
  exact hbegins hnone hbegun

/-! ## The frames of the commands -/

theorem inRun_fairly {s : State} {effect : State → Answer} (h : ClaimsFairly s (effect s)) :
    ClaimsFairly s (inRun s effect) := by
  unfold inRun
  split
  · exact h
  · exact .unchanged s

theorem heard_fairly {s : State} {effect : State → State} (h : ∀ u, Unclaimed u (effect u)) :
    ClaimsFairly s (heard s effect) := by
  have hreceiving : Unclaimed s s.receiving := .of_closure (by simp) (by simp)
  unfold heard
  split
  · exact (hreceiving.trans (h _)).concludes
  · exact .unchanged s

theorem State.selectAsleep_sameClaim (s : State) :
    s.selectAsleep.claimView = s.claimView ∧ s.selectAsleep.closure = s.closure := by
  unfold State.selectAsleep
  dsimp only
  split <;> exact ⟨rfl, rfl⟩

theorem State.select_sameClaim (s : State) : s.select.claimView = s.claimView ∧ s.select.closure = s.closure := by
  unfold State.select
  split
  · exact ⟨rfl, rfl⟩
  · exact s.selectAsleep_sameClaim
  · exact s.selectAsleep_sameClaim
  · exact s.selectAsleep_sameClaim
  all_goals exact ⟨rfl, rfl⟩

theorem State.selected_sameClaim (s : State) :
    s.selected.claimView = s.claimView ∧ s.selected.closure = s.closure := by
  unfold State.selected
  split
  · exact s.select_sameClaim
  · exact ⟨rfl, rfl⟩

theorem replies_fairly (r : Result) (data : List Byte) (s : State) : ClaimsFairly s (.next (s.reply r data)) :=
  .next rfl rfl

theorem portAnswered_fairly_of {s : State} {effect : State → Answer} (h : ClaimsFairly s.selected (effect s.selected)) :
    ClaimsFairly s (portAnswered s effect) := by
  obtain ⟨hview, hclosure⟩ := s.selected_sameClaim
  have hanswer : ∀ a, ClaimsFairly s.selected a → ClaimsFairly s a := fun a ha => ha.after hview hclosure
  unfold portAnswered
  split
  · exact hanswer _ (.unchanged _)
  · exact hanswer _ (replies_fairly _ _ _)
  · exact hanswer _ h

theorem portRequest_fairly_of {s : State} {refusal : List Byte} {effect : State → Answer}
    (h : ClaimsFairly s.selected (effect s.selected)) : ClaimsFairly s (portRequest s refusal effect) :=
  portAnswered_fairly_of (by
    split
    · exact replies_fairly _ _ _
    · exact h)

theorem portAnswered_fairly {s : State} {effect : State → Answer} (h : ∀ u, ClaimsFairly u (effect u)) :
    ClaimsFairly s (portAnswered s effect) := portAnswered_fairly_of (h _)

theorem portRequest_fairly {s : State} {refusal : List Byte} {effect : State → Answer}
    (h : ∀ u, ClaimsFairly u (effect u)) : ClaimsFairly s (portRequest s refusal effect) := portRequest_fairly_of (h _)

end Sys2Proof.Machine
end

section
/-! PROOF. No command brings a claim but by the eligibility test (R48, R75): the shared operations, and each command. -/

namespace Sys2Proof.Machine

/-! ## The shared operations -/

section Operations

variable {src : Source} {value : Half} {reported : Scope} {id : StationId} {s : State}

theorem State.takeOnset_unclaimed : Unclaimed s (s.takeOnset src value reported) :=
  fun h => ⟨State.takeOnset_noClaim _ _ _ h, by simp⟩

theorem State.takeStanding_unclaimed : Unclaimed s (s.takeStanding src value) :=
  fun h => ⟨State.takeStanding_noClaim _ _ h, by simp⟩

theorem State.judgeShort_unclaimed {current : Nat} : Unclaimed s (s.judgeShort current) :=
  fun h => ⟨State.judgeShort_noClaim _ h, by simp⟩

theorem State.takeClearance_unclaimed : Unclaimed s (s.takeClearance src) := .of_closure (by simp) (by simp)

theorem State.liftClosingHold_unclaimed : Unclaimed s s.liftClosingHold :=
  fun h => ⟨State.liftClosingHold_noClaim h, by simp⟩

theorem State.failClaim_unclaimed {o : ClaimOutcome} : Unclaimed s (s.failClaim o) :=
  fun _ => ⟨State.failClaim_claim _ _, by simp⟩

theorem State.changeConn_unclaimed {new : ConnState} {path : Path} : Unclaimed s (s.changeConn new path) :=
  .of_closure (by simp) (by simp)

theorem State.queueFrame_unclaimed {f : Frame} : Unclaimed s (s.queueFrame f) := .of_closure (by simp) (by simp)

theorem State.rosterFrame_unclaimed {update : RosterEntry → RosterEntry} : Unclaimed s (s.rosterFrame id update) :=
  .of_closure (by simp) (by simp)

theorem State.setEvent_unclaimed {e : Event} : Unclaimed s (s.setEvent e) := .of_closure rfl rfl

theorem State.cancelSleep_unclaimed : Unclaimed s s.cancelSleep := .of_closure (by simp) (by simp)

theorem State.clearRecordOf_unclaimed : Unclaimed s (s.clearRecordOf id) := .of_closure (by simp) (by simp)

theorem State.duplicateId_unclaimed : Unclaimed s s.duplicateId := fun _ => ⟨State.duplicateId_claim _, by simp⟩

theorem State.countGood_unclaimed : Unclaimed s (s.countGood id) := .of_closure (by simp) (by simp)

theorem State.findFaulty_unclaimed : Unclaimed s s.findFaulty := by
  refine fun h => ⟨?_, by simp⟩
  unfold State.findFaulty
  dsimp only
  split
  · exact State.takeOnset_noClaim _ _ _ h
  · exact h

theorem State.acceptFrame_unclaimed : Unclaimed s (s.acceptFrame id) := .of_closure (by simp) (by simp)

theorem State.yieldClaim_unclaimed : Unclaimed s s.yieldClaim := fun h => by
  rw [State.yieldClaim, h]
  exact ⟨h, rfl⟩

theorem State.leaveClaim_unclaimed : Unclaimed s s.leaveClaim := fun h => by
  rw [State.leaveClaim, h]
  exact ⟨h, rfl⟩

theorem State.windowTest_unclaimed : Unclaimed s s.windowTest := by
  have hclosed : Unclaimed s (s.endClaim .succeeded).enterClosing := fun _ => ⟨by simp [State.endClaim], by simp⟩
  have hfailed : Unclaimed s ((s.queueAbandon .window).failClaim .window) :=
    State.queueFrame_unclaimed.trans State.failClaim_unclaimed
  unfold State.windowTest
  dsimp only
  (repeat' split) <;> assumption

theorem State.takeAssent_unclaimed {ids : List StationId} {timer : Nat} : Unclaimed s (s.takeAssent id ids timer) := by
  have hmap : Unclaimed s { s with closure := { s.closure with
      claim := s.closure.claim.map fun c => { c with phase := .awaiting (ids.filter fun i => decide (i ≠ id)) timer } } } :=
    fun h => ⟨by rw [h]; rfl, rfl⟩
  unfold State.takeAssent
  dsimp only
  split
  · split
    · exact hmap.trans State.windowTest_unclaimed
    · exact hmap
  · exact .refl s

theorem State.claimTransmitted_unclaimed {number : Byte} {w : Option Withdrawal} :
    Unclaimed s (s.claimTransmitted number w) := fun h => by
  unfold State.claimTransmitted
  split
  · exact State.queueFrame_unclaimed h
  · exact ⟨h, rfl⟩
  · rw [h]
    exact ⟨h, rfl⟩

theorem State.transmitted_unclaimed {f : Frame} : Unclaimed s (s.transmitted f) := by
  have hsent : Unclaimed s { s with mbi := s.mbi.sent f.kind } := .of_closure rfl rfl
  unfold State.transmitted
  dsimp only
  split
  · exact hsent.trans State.claimTransmitted_unclaimed
  · split
    · exact hsent.trans (.of_closure rfl rfl)
    · exact hsent
  all_goals exact hsent

theorem State.countFailure_unclaimed {k : FrameKind} : Unclaimed s (s.countFailure k) := by
  have hdropped : Unclaimed s
      (({ s with mbi := { s.mbi with list := removeKind k s.mbi.list } } : State).setEvent .txDropped) :=
    .of_closure rfl rfl
  unfold State.countFailure
  dsimp only
  split
  · exact .refl s
  · split
    · split
      · exact hdropped.trans State.failClaim_unclaimed
      · exact hdropped
    · exact .of_closure rfl rfl

/-- The entry into SILENT ends no claim that does not stand; a sleep entered in it leaves the self-check unpassed. -/
theorem State.enterSilent_claims {race : Race} :
    (s.enterSilent race).Eligible → (s.enterSilent race).closure.claimNumber = s.closure.claimNumber := by
  unfold State.enterSilent
  dsimp only
  split
  · split
    · exact fun he => nomatch he.passed
    · exact fun _ => by simp [State.discardFrames]
  · exact fun _ => by simp [State.discardFrames]

theorem State.attemptEnded_unclaimed {k : FrameKind} : Unclaimed s (s.attemptEnded k) := by
  have hjudged : Unclaimed s (s.attemptJudged k) := by
    unfold State.attemptJudged
    split
    · exact .of_closure rfl rfl
    · exact Unclaimed.after (State.countFailure_unclaimed (s := s.attemptCounted)) rfl
  exact hjudged

theorem State.attemptFailed_claims {k : FrameKind} {race : Race} (h : s.closure.claim = none) :
    (s.attemptFailed k race).closure.claim = none
      ∧ ((s.attemptFailed k race).Eligible →
          (s.attemptFailed k race).closure.claimNumber = s.closure.claimNumber) := by
  obtain ⟨hclaim, hnumber⟩ := State.attemptEnded_unclaimed (k := k) h
  rw [State.attemptFailed_eq]
  split
  · exact ⟨State.enterSilent_claim _ _, fun he => (State.enterSilent_claims he).trans hnumber⟩
  · exact ⟨hclaim, fun _ => hnumber⟩

theorem State.followBusTrip_unclaimed : Unclaimed s s.followBusTrip :=
  fun h => ⟨State.followBusTrip_noClaim h, by simp⟩

theorem State.postponedAll_unclaimed {l : List Source} : Unclaimed s (s.postponedAll l) :=
  fun h => ⟨State.postponedAll_noClaim _ h, by simp⟩

theorem State.startUp_unclaimed : Unclaimed s s.startUp := by
  refine fun h => ⟨?_, by simp⟩
  unfold State.startUp
  dsimp only
  split
  · simpa using State.takeOnset_noClaim .busSilent s.releaseMbi.tecValue .localOnly (s := s.releaseMbi) h
  · simpa using h

theorem State.commit_unclaimed {current : Nat} : Unclaimed s (s.commit current) := by
  have hbegun : Unclaimed s s.commitBegun := by
    rw [s.commitBegun_eq]
    exact .of_closure rfl rfl
  have hjudged : Unclaimed s (s.commitDegraded.judgeShort current) :=
    ((hbegun.trans State.takeStanding_unclaimed).trans State.takeStanding_unclaimed).trans State.judgeShort_unclaimed
  rw [State.commit_eq]
  exact hjudged.trans (.of_closure (by simp) (by simp))

theorem State.enterReleasing_unclaimed : Unclaimed s s.enterReleasing := .of_closure (by simp) (by simp)

theorem State.judgeSample_unclaimed {x : Sample} : Unclaimed s (s.judgeSample x) :=
  fun h => ⟨State.judgeSample_noClaim _ h, by simp⟩

end Operations

/-! ## What leaves a condition of R74 failed -/

theorem State.halt_halted (service : Bool) (s : State) :
    ¬ (s.halt service).Eligible ∧ (s.halt service).closure.claim = none := by
  refine ⟨fun he => ?_, rfl⟩
  have hstate : (s.halt service).conn.state = .isolated := he.isolated
  revert hstate
  change (if _ then ConnState.lockout else .detached) = .isolated → False
  split <;> nofun

theorem State.startPinReset_fairly (s : State) : ClaimsFairly s (.next s.startPinReset) := by
  obtain ⟨hfails, hnone⟩ := s.halt_halted false
  unfold State.startPinReset
  split <;> first | exact .unchanged s | exact .halted hfails hnone

end Sys2Proof.Machine
end

section
/-! PROOF. The sample and the eligibility test (R75, R97): the reports of a sample make no station eligible that no sleep
pending holds back. -/

namespace Sys2Proof.Machine

/-! ## Reports leave a condition failed -/

/-- With no sleep pending before, none is pending after, and the station is eligible only if it was so. -/
def StaysUnready (s u : State) : Prop :=
  s.conn.sleepPending = false → u.conn.sleepPending = false ∧ (u.Eligible → s.Eligible)

theorem StaysUnready.refl (s : State) : StaysUnready s s := fun h => ⟨h, id⟩

theorem StaysUnready.trans {s u w : State} (h1 : StaysUnready s u) (h2 : StaysUnready u w) : StaysUnready s w :=
  fun h => by
    obtain ⟨hu, hready⟩ := h1 h
    obtain ⟨hw, hready'⟩ := h2 hu
    exact ⟨hw, fun he => hready (hready' he)⟩

theorem StaysUnready.of_view {s u : State} (hview : u.claimView = s.claimView)
    (hsleep : u.conn.sleepPending = s.conn.sleepPending) : StaysUnready s u :=
  fun h => ⟨hsleep.trans h, (State.eligible_of_sameView s u hview).1⟩

theorem StaysUnready.of_not_isolated {s u : State} (hstate : u.conn.state ≠ .isolated)
    (hsleep : s.conn.sleepPending = false → u.conn.sleepPending = false) : StaysUnready s u :=
  fun h => ⟨hsleep h, fun he => absurd he.isolated hstate⟩

section Reports

variable {src : Source} {value : Half} {reported : Scope} {s : State}

theorem State.setSource_unready {x : SourceRecord} : StaysUnready s (s.setSource src x) := fun h => by
  refine ⟨by simpa using h, fun ⟨hmay, hvoltage⟩ => ⟨?_, hvoltage.of_same (by simp) (by simp) (by simp)⟩⟩
  have hlist : (∀ f ∈ (s.setSource src x).mbi.list, f.frame.kind.isOwnConnection = false)
      ↔ ∀ f ∈ s.mbi.list, f.frame.kind.isOwnConnection = false := by
    have hfilter (l : List TxFrame) : (∀ f ∈ l, f.frame.kind.isOwnConnection = false)
        ↔ (l.filter fun f => f.frame.kind.isOwnConnection) = [] := by
      simp [List.filter_eq_nil_iff]
    rw [hfilter, hfilter, State.setSource_ownConnection]
  unfold State.MayClaim at hmay ⊢
  rw [hlist] at hmay
  simpa using hmay

theorem State.followPathSources_unready : StaysUnready s s.followPathSources := by
  by_cases hs : s.conn.state = .isolated
  · have hsame : s.followPathSources = s := by simp [State.followPathSources, hs]
    rw [hsame]
    exact .refl s
  · exact .of_not_isolated (by simpa using hs) fun h => by simpa using h

theorem State.takeTrip_unready {d : TripCause} : StaysUnready s (s.takeTrip d) := by
  obtain ⟨hstate, -⟩ := State.takeTrip_hasTripped d s
  exact .of_not_isolated (by rcases hstate with h | h <;> simp [h]) fun h => State.takeTrip_sleepPending d h

theorem State.takeAction_unready : StaysUnready s (s.takeAction src value reported) := by
  unfold State.takeAction
  cases src with
  | modOv | modUv =>
    dsimp only
    split
    · exact State.takeTrip_unready
    · exact State.followPathSources_unready
  | short | tempTrip | busOv | dupId | ocDsg | ocChg | busSilent | rxDegraded => exact State.takeTrip_unready

theorem State.cancelSleep_unready : StaysUnready s s.cancelSleep := fun h => by
  have hsame : s.cancelSleep = s := by simp [State.cancelSleep, h]
  rw [hsame]
  exact ⟨h, id⟩

theorem State.setEvent_unready {e : Event} : StaysUnready s (s.setEvent e) := .of_view rfl rfl

theorem State.takeOnset_unready : StaysUnready s (s.takeOnset src value reported) := by
  by_cases ha : s.actsOn src = true
  · cases hx : (s.fault.register.get src).state with
    | clear | lapsed =>
      cases hcovered : s.isHeld src
      · rw [State.takeOnset_armed value reported ha (by simp [hx]) hcovered]
        exact (State.setSource_unready.trans State.cancelSleep_unready).trans State.takeAction_unready
      · rw [State.takeOnset_covered value reported ha (by simp [hx]) hcovered]
        exact State.setSource_unready.trans State.setEvent_unready
    | active =>
      by_cases ht : src.isTrip = true
      · rw [State.takeOnset_again value reported ha hx ht]
        exact State.setSource_unready.trans State.takeAction_unready
      · rw [State.takeOnset_noted value reported (.inr ⟨hx, by simpa using ht⟩)]
        exact State.setSource_unready
    | held =>
      rw [State.takeOnset_noted value reported (.inl hx)]
      exact State.setSource_unready
  · rw [State.takeOnset_of_not_acting value reported (by simpa using ha)]
    exact State.setSource_unready

theorem State.takeClearance_unready : StaysUnready s (s.takeClearance src) := by
  unfold State.takeClearance
  dsimp only
  split
  · exact State.setSource_unready
  · split
    · exact State.setSource_unready.trans State.followPathSources_unready
    · exact State.setSource_unready
  all_goals exact State.setSource_unready

theorem State.takeClearances_unready {l : List Source} : StaysUnready s (s.takeClearances l) := by
  induction l generalizing s with
  | nil => exact .refl s
  | cons src rest ih => exact State.takeClearance_unready.trans ih

theorem State.takeOnsets_unready {x : Sample} {l : List Source} : StaysUnready s (s.takeOnsets x l) := by
  induction l generalizing s with
  | nil => exact .refl s
  | cons src rest ih => exact State.takeOnset_unready.trans ih

theorem State.judgeSample_unready {x : Sample} : StaysUnready s (s.judgeSample x) := by
  have hdet (d : Detectors) : StaysUnready s { s with det := d } := .of_view rfl rfl
  unfold State.judgeSample
  split
  · exact ((hdet _).trans State.takeClearances_unready).trans State.takeOnsets_unready
  · exact .refl s

end Reports

/-! ## The end of a sample -/

/-- The test leaves no station eligible. -/
theorem State.eligibilityTest_not_eligible (s : State) : ¬ s.eligibilityTest.Eligible := by
  by_cases he : s.Eligible
  · rw [State.eligibilityTest_of_eligible s he]
    exact State.beginClaim_not_eligible s he
  · by_cases hc : s.SenseConflict
    · rw [State.eligibilityTest_of_conflict s hc]
      exact (State.eligible_of_sameView s (s.setEvent .busSenseConflict) rfl).not.2 he
    · rwa [State.eligibilityTest_of_fails s he hc]

/-- A command that leaves no station eligible concludes so. -/
theorem conclude_unready {before u t : State} (hu : ¬ u.Eligible) (h : conclude before u = .next t) : ¬ t.Eligible := by
  obtain ⟨t', ht', -, hconflict, hneither⟩ := conclude_end before u
  obtain rfl := Host.Outcome.next.inj (h.symm.trans ht')
  have hoffered (w : State) (hw : ¬ w.Eligible) : ¬ w.offer.Eligible :=
    (State.eligible_of_sameView w w.offer (State.offer_claimView w)).not.2 hw
  by_cases hc : u.SenseConflict
  · rcases hconflict hc with rfl | ⟨-, rfl⟩
    · exact hoffered _ ((State.eligible_of_sameView u (u.setEvent .busSenseConflict) rfl).not.2 hu)
    · exact hoffered _ hu
  · rw [hneither hu hc]
    exact hoffered _ hu

section Sample

variable {i : SampleInputs} {race : Race} {s t : State}

theorem State.sampled_sameClaim (i : SampleInputs) (s : State) :
    (s.sampled i).closure = s.closure ∧ (s.sampled i).conn = s.conn := by
  rw [State.sampled_eq]
  exact ⟨rfl, rfl⟩

/-- After a sample no station is left eligible without its claim (R75): in the order of the reports first the test is the
last word; in the other order the reports make it eligible only out of a pending sleep, which the end of the command
tests. -/
theorem conclude_sample_unready (h : conclude s (s.sampleJudged i race) = .next t) : ¬ t.Eligible := by
  cases race with
  | faultFirst => exact conclude_unready (State.eligibilityTest_not_eligible _) h
  | controllerFirst =>
    by_cases hs : s.Eligible
    · obtain ⟨-, hconn⟩ := State.sampled_sameClaim i s
      have hawake : (s.sampled i).eligibilityTest.conn.sleepPending = false := by
        simpa [hconn] using hs.awake
      refine conclude_unready (fun he => ?_) h
      exact State.eligibilityTest_not_eligible _ ((State.judgeSample_unready hawake).2 he)
    · exact conclude_not_eligible s _ t hs h

/-- The claim that a test has begun ends in the reports or stands with its conditions (R59, R97). -/
theorem State.NewClaim.judgeSample {number : Byte} {x : Sample} {u : State} (h : u.NewClaim number) :
    (u.judgeSample x).closure.claim = none ∨ (u.judgeSample x).NewClaim number := by
  obtain ⟨hstate, -, hsleep, -⟩ := id h
  rcases State.judgeSample_stands x hstate hsleep with hended | ⟨hconn, hclosure, hawake, hlist⟩
  · exact .inl hended
  · exact .inr (h.of_same hconn (by simp) hawake (by simp) (by simp) hclosure (by simp) (by simp) (by simp) hlist)

/-- The test of a station that is not eligible begins no claim. -/
theorem State.eligibilityTest_closure {u : State} (he : ¬ u.Eligible) : u.eligibilityTest.closure = u.closure := by
  by_cases hc : u.SenseConflict
  · rw [State.eligibilityTest_of_conflict u hc]
    rfl
  · rw [State.eligibilityTest_of_fails u he hc]

/-- The test made before the reports. -/
theorem sample_controllerFirst_fairly : ClaimsFairly s (conclude s (s.sampleJudged i .controllerFirst)) := by
  obtain ⟨hclosure, -⟩ := State.sampled_sameClaim i s
  by_cases he : (s.sampled i).Eligible
  · refine fun t ht => ⟨fun _ => conclude_sample_unready ht, fun hnone hbegun => ?_⟩
    have hnew := State.beginClaim_newClaim he
    rw [hclosure, ← State.eligibilityTest_of_eligible _ he] at hnew
    rcases hnew.judgeSample (x := s.sampleOf i) with hended | hstands
    · rcases conclude_claim ht with hsame | ⟨hready, -⟩
      · exact absurd (hsame.trans hended) hbegun
      · have hawake : (s.sampled i).eligibilityTest.conn.sleepPending = false := by simpa using he.awake
        exact absurd ((State.judgeSample_unready hawake).2 hready) (State.eligibilityTest_not_eligible _)
    · obtain ⟨hstate, -⟩ := id hstands
      rw [State.sampleJudged, conclude_of_not_isolated _ _ (by rw [hstate]; nofun)] at ht
      obtain rfl := Host.Outcome.next.inj ht
      exact hstands.offer
  · have htested : Unclaimed s (s.sampled i).eligibilityTest :=
      .of_closure (by rw [State.eligibilityTest_closure he, hclosure]) (by rw [State.eligibilityTest_closure he, hclosure])
    exact (htested.trans State.judgeSample_unclaimed).concludes

/-- The reports made before the test. -/
theorem sample_faultFirst_fairly : ClaimsFairly s (conclude s (s.sampleJudged i .faultFirst)) := by
  obtain ⟨hclosure, -⟩ := State.sampled_sameClaim i s
  refine fun t ht => ⟨fun _ => conclude_sample_unready ht, fun hnone hbegun => ?_⟩
  have hjudged : Unclaimed s ((s.sampled i).judgeSample (s.sampleOf i)) :=
    State.judgeSample_unclaimed.after hclosure
  obtain ⟨hclaim, hnumber⟩ := hjudged hnone
  rw [conclude, State.sampleJudged, State.eligibilityTest_retest] at ht
  obtain rfl := Host.Outcome.next.inj ht
  by_cases he : ((s.sampled i).judgeSample (s.sampleOf i)).Eligible
  · rw [State.eligibilityTest_of_eligible _ he, ← hnumber]
    exact (State.beginClaim_newClaim he).offer
  · simp [State.eligibilityTest_closure he, hclaim] at hbegun

end Sample

end Sys2Proof.Machine
end

section
/-! PROOF. Every command takes claims fairly (R48, R75). -/

namespace Sys2Proof.Machine

/-! ## Received frames -/

theorem accepted_fairly {src : StationId} {f : Frame} {effect : State → State} {s : State}
    (h : ∀ u, Unclaimed u (effect u)) : ClaimsFairly s (accepted src f effect s) :=
  heard_fairly fun u => by
    dsimp only
    split
    · exact State.acceptFrame_unclaimed.trans State.duplicateId_unclaimed
    · split
      · exact State.acceptFrame_unclaimed.trans State.rosterFrame_unclaimed
      · exact State.acceptFrame_unclaimed.trans (h _)

section Received

variable (src : StationId) (s : State)

theorem execStatusReceived_fairly (p : StatusPayload) : ClaimsFairly s (execStatusReceived src p s) :=
  accepted_fairly fun u => by
    dsimp only
    split
    · exact State.rosterFrame_unclaimed.trans State.clearRecordOf_unclaimed
    · exact State.rosterFrame_unclaimed

theorem execTripReceived_fairly (p : TripPayload) : ClaimsFairly s (execTripReceived src p s) :=
  accepted_fairly fun u => by
    split
    · exact State.rosterFrame_unclaimed.trans State.followBusTrip_unclaimed
    · exact State.rosterFrame_unclaimed.trans State.clearRecordOf_unclaimed

theorem execClaimReceived_fairly (p : ClaimPayload) : ClaimsFairly s (execClaimReceived src p s) :=
  accepted_fairly fun u => by
    have hrecorded (w : State) : Unclaimed w (w.recordClaim src p) := .of_closure (by simp) (by simp)
    exact ((State.rosterFrame_unclaimed.trans State.yieldClaim_unclaimed).trans (hrecorded _)).trans
      State.queueFrame_unclaimed

theorem execObjectReceived_fairly (p : ObjectPayload) : ClaimsFairly s (execObjectReceived src p s) :=
  accepted_fairly fun u => by
    dsimp only
    split
    · exact (State.rosterFrame_unclaimed.trans State.queueFrame_unclaimed).trans State.failClaim_unclaimed
    · exact State.rosterFrame_unclaimed

theorem execAssentReceived_fairly (p : AssentPayload) : ClaimsFairly s (execAssentReceived src p s) :=
  accepted_fairly fun u => by
    dsimp only
    split
    · exact State.rosterFrame_unclaimed.trans State.takeAssent_unclaimed
    · exact State.rosterFrame_unclaimed

theorem State.clearRecordFor_unclaimed {number : Byte} (u : State) : Unclaimed u (u.clearRecordFor src number) :=
  .of_closure (by simp) (by simp)

theorem execClosedReceived_fairly (p : ClosedPayload) : ClaimsFairly s (execClosedReceived src p s) :=
  accepted_fairly fun _ => State.rosterFrame_unclaimed.trans (State.clearRecordFor_unclaimed src _)

theorem execAbandonReceived_fairly (p : AbandonPayload) : ClaimsFairly s (execAbandonReceived src p s) :=
  accepted_fairly fun _ => State.rosterFrame_unclaimed.trans (State.clearRecordFor_unclaimed src _)

theorem execReleaseReceived_fairly : ClaimsFairly s (execReleaseReceived src s) :=
  accepted_fairly fun _ => State.rosterFrame_unclaimed

end Received

section Commands

variable (s : State)

theorem execFrameFaulty_fairly (frame : RawFrame) : ClaimsFairly s (execFrameFaulty frame s) := by
  unfold execFrameFaulty
  split
  · exact heard_fairly fun _ => State.findFaulty_unclaimed
  · exact .unchanged s

theorem execFrameRejected_fairly (frame : RawFrame) : ClaimsFairly s (execFrameRejected frame s) := by
  unfold execFrameRejected
  split
  · exact heard_fairly fun _ => .of_closure rfl rfl
  · exact .unchanged s

theorem execUnknownKindFrame_fairly (frame : RawFrame) : ClaimsFairly s (execUnknownKindFrame frame s) := by
  unfold execUnknownKindFrame
  split
  · exact heard_fairly fun _ => State.countGood_unclaimed
  · exact .unchanged s

theorem State.leaveSilent_unclaimed : Unclaimed s s.leaveSilent := .of_closure (by simp) (by simp)

theorem execSilentExitCount_fairly : ClaimsFairly s (execSilentExitCount s) :=
  inRun_fairly (by
    split
    · exact s.leaveSilent_unclaimed.concludes
    · exact .unchanged s)

theorem execSilenceTimerExpiry_fairly : ClaimsFairly s (execSilenceTimerExpiry s) :=
  inRun_fairly (by
    split
    · exact s.leaveSilent_unclaimed.concludes
    · exact .unchanged s)

/-! ## The line and the own attempt -/

theorem State.othersSend_claimView : s.othersSend.claimView = s.claimView := by
  unfold State.othersSend State.startMarkRead
  dsimp only
  split <;> rfl

theorem State.offerAgainst_claimView (rank : Byte) : (s.offerAgainst rank).claimView = s.claimView := by
  unfold State.offerAgainst
  split
  · exact s.othersSend_claimView
  · split
    · rfl
    · exact s.othersSend_claimView

theorem execLineIdle_fairly (contest : IdleContest) : ClaimsFairly s (execLineIdle contest s) :=
  inRun_fairly (by
    split
    · exact .unchanged s
    · cases contest with
      | alone => exact .next (State.offer_claimView _) (by simp)
      | startMarkSeen => exact .next (State.othersSend_claimView _) (by simp)
      | offered rank => exact .next (State.offerAgainst_claimView _ rank) (by simp))

theorem execCollisionError_fairly : ClaimsFairly s (execCollisionError s) :=
  inRun_fairly (by
    split
    · exact .next rfl rfl
    · exact .unchanged s
    · exact .unchanged s)

theorem execTxSuccess_fairly : ClaimsFairly s (execTxSuccess s) :=
  inRun_fairly (by
    split
    · split
      · exact State.transmitted_unclaimed.concludes
      · exact .unchanged s
    · exact .unchanged s
    · exact .unchanged s)

theorem execTxAttemptFailed_fairly (race : Race) : ClaimsFairly s (execTxAttemptFailed race s) :=
  inRun_fairly (by
    split
    · exact concludes_fairly_of State.attemptFailed_claims
    · exact .unchanged s)

/-! ## Timers and the sample -/

theorem execRosterStaleLimit_fairly (id : StationId) : ClaimsFairly s (execRosterStaleLimit id s) :=
  inRun_fairly (by
    split
    · split
      · exact Unclaimed.concludes (.of_closure rfl rfl)
      · exact .unchanged s
    · exact .unchanged s)

theorem execRosterEmptyLimit_fairly (id : StationId) : ClaimsFairly s (execRosterEmptyLimit id s) :=
  inRun_fairly (by
    split
    · split
      · exact Unclaimed.concludes (.of_closure (by simp) (by simp))
      · exact .unchanged s
    · exact .unchanged s)

theorem execRecordExpiry_fairly : ClaimsFairly s (execRecordExpiry s) :=
  inRun_fairly (by
    split
    · split
      · exact Unclaimed.concludes (.of_closure rfl rfl)
      · exact .unchanged s
    · exact .unchanged s)

theorem execClaimTimerExpiry_fairly : ClaimsFairly s (execClaimTimerExpiry s) :=
  inRun_fairly (by
    split
    · next c hc =>
      split
      · exact Unclaimed.concludes fun hnone => by simp [hc] at hnone
      · exact .unchanged s
    · exact .unchanged s)

theorem execHoldOffExpiry_fairly : ClaimsFairly s (execHoldOffExpiry s) :=
  inRun_fairly (by
    split
    · exact Unclaimed.concludes (.of_closure rfl rfl)
    · exact .unchanged s)

theorem execQuietPeriodExpiry_fairly : ClaimsFairly s (execQuietPeriodExpiry s) :=
  inRun_fairly (by
    split
    · exact Unclaimed.concludes (.of_closure rfl rfl)
    · exact .unchanged s)

theorem execSettleEnd_fairly : ClaimsFairly s (execSettleEnd s) :=
  inRun_fairly (by
    split
    · refine Unclaimed.concludes (State.liftClosingHold_unclaimed.trans ?_)
      split
      · exact .of_closure (by simp) (by simp)
      · exact .refl _
    · exact .unchanged s)

theorem execReleaseTimerExpiry_fairly : ClaimsFairly s (execReleaseTimerExpiry s) :=
  inRun_fairly (by
    split
    · exact State.changeConn_unclaimed.concludes
    · exact .unchanged s)

theorem execStatusTimerExpiry_fairly : ClaimsFairly s (execStatusTimerExpiry s) :=
  inRun_fairly (by
    split
    · exact Unclaimed.concludes (.of_closure (by simp) (by simp))
    · exact .unchanged s)

theorem execLockoutWindowExpiry_fairly : ClaimsFairly s (execLockoutWindowExpiry s) :=
  inRun_fairly (by
    split
    · exact .next rfl rfl
    · exact .unchanged s)

theorem execSampleComplete_fairly (i : SampleInputs) (race : Race) : ClaimsFairly s (execSampleComplete i race s) :=
  inRun_fairly (by
    split
    · cases race with
      | faultFirst => exact sample_faultFirst_fairly (i := i)
      | controllerFirst => exact sample_controllerFirst_fairly (i := i)
    · exact .unchanged s)

theorem execShortOnset_fairly (current : Nat) : ClaimsFairly s (execShortOnset current s) :=
  inRun_fairly State.judgeShort_unclaimed.concludes

theorem execShortClearance_fairly (current : Nat) : ClaimsFairly s (execShortClearance current s) :=
  inRun_fairly (by
    split
    · exact Unclaimed.concludes (.of_closure (by simp) (by simp))
    · exact .unchanged s)

/-! ## Self-check, sleep, wake and resets -/

theorem execSelfCheckEnd_fairly (failed : CheckItems) : ClaimsFairly s (execSelfCheckEnd failed s) :=
  inRun_fairly (by
    split
    · refine Unclaimed.concludes ?_
      split <;> exact .of_closure (by simp) (by simp)
    · exact .unchanged s)

theorem execSleepEntry_fairly : ClaimsFairly s (execSleepEntry s) := by
  unfold execSleepEntry
  split
  · exact .halted (fun he => nomatch he.passed) rfl
  · exact .unchanged s

theorem execWakeLine_fairly : ClaimsFairly s (execWakeLine s) := by
  unfold execWakeLine
  split <;> exact .next rfl rfl

theorem execCurrentWake_fairly (current : Nat) : ClaimsFairly s (execCurrentWake current s) := by
  unfold execCurrentWake
  split <;> exact .next rfl rfl

theorem execPortWake_fairly : ClaimsFairly s (execPortWake s) := by
  obtain ⟨hview, hclosure⟩ := s.selectAsleep_sameClaim
  unfold execPortWake
  split
  · exact .next hview (by rw [hclosure])
  · exact .unchanged s

theorem execWakePulseEnd_fairly : ClaimsFairly s (execWakePulseEnd s) := by
  unfold execWakePulseEnd
  split <;> exact .next rfl rfl

theorem execMainDomainReady_fairly (current : Nat) : ClaimsFairly s (execMainDomainReady current s) := by
  unfold execMainDomainReady
  split
  · exact Unclaimed.concludes (State.judgeShort_unclaimed.after rfl)
  · exact .unchanged s

theorem execVkaLoss_fairly : ClaimsFairly s (execVkaLoss s) := .halted (fun he => nomatch he.isolated) rfl

theorem execPowerOnResetEnd_fairly (straps : StationId) : ClaimsFairly s (execPowerOnResetEnd straps s) := by
  unfold execPowerOnResetEnd
  split
  · exact .halted (fun he => nomatch he.isolated) rfl
  · exact .unchanged s

theorem execResetnLow_fairly (width : Nat) (taken : Bool) : ClaimsFairly s (execResetnLow width taken s) := by
  unfold execResetnLow
  split
  · exact s.startPinReset_fairly
  · exact .unchanged s

theorem execPinResetEnd_fairly (straps : StationId) (current : Nat) : ClaimsFairly s (execPinResetEnd straps current s) := by
  unfold execPinResetEnd
  split
  · exact Unclaimed.concludes (Unclaimed.after (State.startUp_unclaimed.trans State.judgeShort_unclaimed) rfl)
  · exact .unchanged s

theorem execServiceResetEnd_fairly (current : Nat) : ClaimsFairly s (execServiceResetEnd current s) := by
  unfold execServiceResetEnd
  split
  · exact Unclaimed.concludes (Unclaimed.after (State.startUp_unclaimed.trans State.judgeShort_unclaimed) rfl)
  · exact .unchanged s

theorem execSsnRelease_fairly : ClaimsFairly s (execSsnRelease s) := by
  unfold execSsnRelease
  dsimp only
  split
  · obtain ⟨hfails, hnone⟩ := State.halt_halted true { s with port := { s.port with line := .released } }
    exact .halted hfails hnone
  · exact .next rfl rfl

/-! ## The requests of the service port -/

theorem execRosterRead_fairly (id : Byte) : ClaimsFairly s (execRosterRead id s) :=
  portAnswered_fairly fun u => by
    split <;> exact replies_fairly _ _ u

theorem execConfigCommit_fairly (current : Nat) : ClaimsFairly s (execConfigCommit current s) :=
  portRequest_fairly fun u => by
    split
    · exact replies_fairly _ _ u
    · split
      · exact replies_fairly _ _ u
      · exact State.commit_unclaimed.concludes_reply

theorem execJoin_fairly : ClaimsFairly s (execJoin s) :=
  portRequest_fairly fun u => by
    split
    · exact Unclaimed.concludes_reply (Unclaimed.after (State.cancelSleep_unclaimed.trans State.changeConn_unclaimed) rfl)
    · exact replies_fairly _ _ u

theorem execLeave_fairly : ClaimsFairly s (execLeave s) :=
  portRequest_fairly fun u => by
    have hleft : Unclaimed u ({ u with conn := { u.conn with joined := false } } : State).cancelSleep :=
      State.cancelSleep_unclaimed.after rfl
    dsimp only
    split
    · exact (hleft.trans State.changeConn_unclaimed).concludes_reply
    · exact ((hleft.trans State.leaveClaim_unclaimed).trans State.changeConn_unclaimed).concludes_reply
    · exact (((hleft.trans State.queueFrame_unclaimed).trans State.enterReleasing_unclaimed).trans
        State.liftClosingHold_unclaimed).concludes_reply
    · exact ((hleft.trans State.queueFrame_unclaimed).trans State.enterReleasing_unclaimed).concludes_reply
    all_goals exact replies_fairly _ _ u

theorem execSleep_fairly : ClaimsFairly s (execSleep s) :=
  portRequest_fairly fun u => by
    split
    · split
      · exact replies_fairly _ _ u
      · split
        · exact replies_fairly _ _ u
        · exact Unclaimed.concludes_reply (.of_closure (by simp) (by simp))
    · exact replies_fairly _ _ u

theorem State.acknowledgeAll_unclaimed (l : List Source) (u : State) : Unclaimed u (u.acknowledgeAll l) :=
  .of_closure (by simp) (by simp)

theorem execAckTrip_fairly : ClaimsFairly s (execAckTrip s) :=
  portRequest_fairly fun u => by
    have hheldOff (w : State) : Unclaimed w w.startHoldOff := .of_closure rfl rfl
    split
    · split
      · exact replies_fairly _ _ u
      · refine Unclaimed.concludes_reply ((State.acknowledgeAll_unclaimed Source.all u).trans ?_)
        split
        · exact (hheldOff _).trans State.changeConn_unclaimed
        · exact State.changeConn_unclaimed
    · exact replies_fairly _ _ u

theorem execSetHolds_fairly (mask : Half) : ClaimsFairly s (execSetHolds mask s) :=
  portRequest_fairly fun u => by
    split
    · exact replies_fairly _ _ u
    · split
      · exact replies_fairly _ _ u
      · exact Unclaimed.concludes_reply (State.postponedAll_unclaimed.after rfl)

theorem execClearFaults_fairly (mask : Half) : ClaimsFairly s (execClearFaults mask s) :=
  portRequest_fairly fun u => by
    split
    · exact replies_fairly _ _ u
    · exact Unclaimed.concludes_reply (.of_closure (by simp) (by simp))

theorem execCheck_fairly : ClaimsFairly s (execCheck s) :=
  portRequest_fairly fun u => by
    have hcheck : Unclaimed u u.startSelfCheck := .of_closure rfl rfl
    split
    · exact replies_fairly _ _ u
    · split
      all_goals first | exact hcheck.concludes_reply | exact replies_fairly _ _ u

theorem execEventClear_fairly (mask : Half) : ClaimsFairly s (execEventClear mask s) :=
  portAnswered_fairly fun _ => .next rfl rfl

theorem execEventEnable_fairly (mask : Half) : ClaimsFairly s (execEventEnable mask s) :=
  portAnswered_fairly fun _ => .next rfl rfl

theorem execServiceReset_fairly : ClaimsFairly s (execServiceReset s) := portRequest_fairly fun _ => .next rfl rfl

theorem execUnknownCommand_fairly (code : Byte) : ClaimsFairly s (execUnknownCommand code s) := by
  unfold execUnknownCommand
  split
  · exact .unchanged s
  · exact portAnswered_fairly fun u => replies_fairly _ _ u

/-- CONFIG_WRITE once committed is refused. -/
theorem execConfigWrite_fairly (field : Byte) (value : Half) (hc : s.committed = true) :
    ClaimsFairly s (execConfigWrite field value s) :=
  portRequest_fairly_of (by
    rw [if_pos (by simpa using hc)]
    exact replies_fairly _ _ _)

/-- CONFIG_WRITE, before the commit too, touches no claim. -/
theorem execConfigWrite_closure {field : Byte} {value : Half} {t : State} (h : execConfigWrite field value s = .next t) :
    t.closure = s.closure := by
  obtain ⟨-, hclosure⟩ := s.selected_sameClaim
  rw [← hclosure]
  unfold execConfigWrite portRequest portAnswered at h
  split at h
  · rw [← Host.Outcome.next.inj h]
  · rw [← Host.Outcome.next.inj h]
    rfl
  · dsimp only at h
    (repeat' split at h) <;> (rw [← Host.Outcome.next.inj h]; rfl)

end Commands

/-- Every command but CONFIG_WRITE before the commit. -/
theorem exec_fairly (c : Instr) (s : State)
    (hconfig : s.committed = false → ∀ field value, c ≠ .configWrite field value) : ClaimsFairly s (exec c s) := by
  cases c with
  | lineIdle contest => exact execLineIdle_fairly s contest
  | collisionError => exact execCollisionError_fairly s
  | txSuccess => exact execTxSuccess_fairly s
  | txAttemptFailed race => exact execTxAttemptFailed_fairly s race
  | frameFaulty frame => exact execFrameFaulty_fairly s frame
  | frameRejected frame => exact execFrameRejected_fairly s frame
  | unknownKindFrame frame => exact execUnknownKindFrame_fairly s frame
  | statusReceived src p => exact execStatusReceived_fairly src s p
  | tripReceived src p => exact execTripReceived_fairly src s p
  | claimReceived src p => exact execClaimReceived_fairly src s p
  | objectReceived src p => exact execObjectReceived_fairly src s p
  | assentReceived src p => exact execAssentReceived_fairly src s p
  | closedReceived src p => exact execClosedReceived_fairly src s p
  | abandonReceived src p => exact execAbandonReceived_fairly src s p
  | releaseReceived src => exact execReleaseReceived_fairly src s
  | silentExitCount => exact execSilentExitCount_fairly s
  | silenceTimerExpiry => exact execSilenceTimerExpiry_fairly s
  | rosterStaleLimit id => exact execRosterStaleLimit_fairly s id
  | rosterEmptyLimit id => exact execRosterEmptyLimit_fairly s id
  | recordExpiry => exact execRecordExpiry_fairly s
  | claimTimerExpiry => exact execClaimTimerExpiry_fairly s
  | holdOffExpiry => exact execHoldOffExpiry_fairly s
  | quietPeriodExpiry => exact execQuietPeriodExpiry_fairly s
  | settleEnd => exact execSettleEnd_fairly s
  | releaseTimerExpiry => exact execReleaseTimerExpiry_fairly s
  | statusTimerExpiry => exact execStatusTimerExpiry_fairly s
  | sampleComplete inputs race => exact execSampleComplete_fairly s inputs race
  | shortOnset current => exact execShortOnset_fairly s current
  | shortClearance current => exact execShortClearance_fairly s current
  | lockoutWindowExpiry => exact execLockoutWindowExpiry_fairly s
  | selfCheckEnd failed => exact execSelfCheckEnd_fairly s failed
  | sleepEntry => exact execSleepEntry_fairly s
  | wakeLine => exact execWakeLine_fairly s
  | currentWake current => exact execCurrentWake_fairly s current
  | portWake => exact execPortWake_fairly s
  | wakePulseEnd => exact execWakePulseEnd_fairly s
  | mainDomainReady current => exact execMainDomainReady_fairly s current
  | vkaLoss => exact execVkaLoss_fairly s
  | powerOnResetEnd straps => exact execPowerOnResetEnd_fairly s straps
  | resetnLow width taken => exact execResetnLow_fairly s width taken
  | vddLow => exact s.startPinReset_fairly
  | pinResetEnd straps current => exact execPinResetEnd_fairly s straps current
  | serviceResetEnd current => exact execServiceResetEnd_fairly s current
  | ssnRelease => exact execSsnRelease_fairly s
  | ident => exact portAnswered_fairly fun _ => replies_fairly _ _ _
  | statusRead => exact portAnswered_fairly fun _ => replies_fairly _ _ _
  | sampleRead => exact portAnswered_fairly fun _ => replies_fairly _ _ _
  | rosterRead id => exact execRosterRead_fairly s id
  | faultRead => exact portAnswered_fairly fun _ => replies_fairly _ _ _
  | historyRead => exact portAnswered_fairly fun _ => replies_fairly _ _ _
  | countersRead => exact portAnswered_fairly fun _ => replies_fairly _ _ _
  | closureRead => exact portAnswered_fairly fun _ => replies_fairly _ _ _
  | configWrite field value =>
    exact execConfigWrite_fairly s field value (by
      cases hc : s.committed
      · exact absurd rfl (hconfig hc field value)
      · rfl)
  | configCommit current => exact execConfigCommit_fairly s current
  | join => exact execJoin_fairly s
  | leave => exact execLeave_fairly s
  | sleep => exact execSleep_fairly s
  | ackTrip => exact execAckTrip_fairly s
  | setHolds mask => exact execSetHolds_fairly s mask
  | clearFaults mask => exact execClearFaults_fairly s mask
  | check => exact execCheck_fairly s
  | eventClear mask => exact execEventClear_fairly s mask
  | eventEnable mask => exact execEventEnable_fairly s mask
  | serviceReset => exact execServiceReset_fairly s
  | unknownCommand code => exact execUnknownCommand_fairly s code
  | transactionBegin =>
    obtain ⟨hview, hclosure⟩ := s.select_sameClaim
    exact .next hview (by rw [hclosure])

/-! ## The eligibility test -/

/-- A claim that a command has begun. -/
theorem exec_newClaim {c : Instr} {s t : State} (h : exec c s = .next t) (hnone : s.closure.claim = none)
    (hbegun : t.closure.claim ≠ none) : t.NewClaim (s.closure.claimNumber + 1) := by
  by_cases hconfig : ∃ field value, c = .configWrite field value
  · obtain ⟨field, value, rfl⟩ := hconfig
    exact absurd ((congrArg Closure.claim (execConfigWrite_closure s h)).trans hnone) hbegun
  · have hother (_ : s.committed = false) (field : Byte) (value : Half) : c ≠ .configWrite field value :=
      fun heq => hconfig ⟨field, value, heq⟩
    exact (exec_fairly c s hother t h).2 hnone hbegun

/-- A timer or a record that runs out, and leaves every condition of the test fulfilled. -/
theorem conclude_begins {before u : State} (hbefore : ¬ before.Eligible) (hu : u.Eligible) :
    conclude before u = .next u.beginClaim.offer := by
  obtain ⟨t, ht, heligible, -⟩ := conclude_end before u
  rcases heligible hu with rfl | ⟨hready, -⟩
  · exact ht
  · exact absurd hready hbefore

/-- Settles O55: the test itself, the sample by `conclude_sample_unready`, the timers by `conclude_begins`, and every command
by `exec_fairly` and `exec_newClaim`. -/
theorem eligibilityTest : Obligations.EligibilityTest := by
  refine ⟨fun s => ⟨State.eligibilityTest_of_fails s, State.eligibilityTest_of_conflict s,
      State.eligibilityTest_of_eligible s, fun x he hx => ?begun⟩, fun i race s hrun hcycle => ?sample,
    fun s hrun => ⟨fun u hhold hu he => ?holdOff, fun u hquiet hu he => ?quiet, fun u r hr hexpiry hu he => ?record⟩,
    fun c s t hconfig hs h => (exec_fairly c s hconfig t h).1 hs,
    fun c s t h hnone hbegun => exec_newClaim h hnone hbegun⟩
  case begun =>
    intro u
    obtain ⟨hnumber, hclaim⟩ := s.beginClaim_closure
    have hvmod : (s.meas.sample.map (·.vmod)).getD 0 = x.vmod := by rw [hx]; rfl
    have hhanded := s.beginClaim_handed
    rw [State.ownClaim, hvmod] at hhanded
    rw [hvmod] at hclaim
    refine ⟨State.beginClaim_entered he.isolated, hnumber, hclaim, ?_, by simp [u], by simp [u], by simp [u]⟩
    rw [show u.closure.claimNumber = s.closure.claimNumber + 1 from hnumber]
    exact hhanded
  case sample =>
    rw [exec_sampleComplete i race hrun hcycle]
    exact ⟨_, rfl, conclude_sample_unready rfl⟩
  case holdOff =>
    have hbefore : ¬ s.Eligible := fun hs => by simp [hs.holdOff] at hhold
    rw [exec_holdOffExpiry hrun hhold, ← hu]
    exact conclude_begins hbefore he
  case quiet =>
    have hbefore : ¬ s.Eligible := fun hs => by simp [hs.quiet] at hquiet
    rw [exec_quietPeriodExpiry hrun hquiet, ← hu]
    exact conclude_begins hbefore he
  case record =>
    have hbefore : ¬ s.Eligible := fun hs => by simp [hs.record] at hr
    rw [exec_recordExpiry hrun hr hexpiry, ← hu]
    exact conclude_begins hbefore he

end Sys2Proof.Machine
end
